-- ==== Sys2Proof/Word.lean ====
section
/-! DEFINITION. The basic data of the UQ-48: bytes, condition sets, ports, sources, and the raw link character and
field-bus reply that commands carry. -/

namespace Sys2Proof

/-- A link byte. -/
abbrev Byte := BitVec 8

/-- A condition set as it crosses a wire: bit n stands for code n (0.6). -/
abbrev CodeSet := BitVec 16

/-- A set of device conditions as a map: bit n stands for the condition of code n (R146). -/
abbrev DevSet := BitVec 8

/-- The set that holds code 15 (UNREACHABLE) alone. -/
def code15Set : CodeSet := 0x8000

/-- The set that holds code 0 alone. -/
def code0Set : CodeSet := 0x0001

/-- The codes of `a` that are not in `b`. -/
def CodeSet.minus (a b : CodeSet) : CodeSet := a &&& ~~~b

/-- Whether the set holds code 15. -/
def CodeSet.has15 (a : CodeSet) : Bool := a.getLsbD 15

/-- The set without code 15. -/
def CodeSet.less15 (a : CodeSet) : CodeSet := a &&& 0x7FFF

/-- The set that holds exactly code n. -/
def CodeSet.single (n : Nat) : CodeSet := BitVec.ofNat 16 (2 ^ n)

/-- The three master links (0.6, Ports). -/
inductive Port where
  | A | B | C
  deriving DecidableEq, Repr

/-- The index of a port: A 0, B 1, C 2. -/
def Port.index : Port → Nat
  | .A => 0 | .B => 1 | .C => 2

/-- The port of a port code, none for any other number. -/
def Port.ofCode : Nat → Option Port
  | 0 => some .A | 1 => some .B | 2 => some .C | _ => none

/-- The ports in order of index. -/
def Port.all : List Port := [.A, .B, .C]

/-- One value for each port. -/
structure PerPort (α : Type) where
  a : α
  b : α
  c : α
  deriving DecidableEq, Repr

def PerPort.get {α : Type} (v : PerPort α) : Port → α
  | .A => v.a | .B => v.b | .C => v.c

def PerPort.set {α : Type} (v : PerPort α) (p : Port) (x : α) : PerPort α :=
  match p with
  | .A => { v with a := x } | .B => { v with b := x } | .C => { v with c := x }

/-- The same value at every port. -/
def PerPort.all {α : Type} (x : α) : PerPort α := ⟨x, x, x⟩

/-- The value of `f` at every port. -/
def PerPort.build {α : Type} (f : Port → α) : PerPort α := ⟨f .A, f .B, f .C⟩

/-- A set of ports. -/
abbrev PortSet := PerPort Bool

def PortSet.empty : PortSet := PerPort.all false
def PortSet.has (v : PortSet) (p : Port) : Bool := PerPort.get v p
def PortSet.insert (v : PortSet) (p : Port) : PortSet := PerPort.set v p true
def PortSet.erase (v : PortSet) (p : Port) : PortSet := PerPort.set v p false
def PortSet.isEmpty (v : PortSet) : Bool := !(v.a || v.b || v.c)
/-- The members in order of index. -/
def PortSet.toList (v : PortSet) : List Port := Port.all.filter (fun p => v.has p)

/-- A source, as an index 0..55: index i is source number i + 1 (0.6, Numbering of sources). -/
abbrev Src := Fin 56

/-- The source number 1..56. -/
def Src.num (i : Src) : Nat := i.val + 1

/-- The source of a number, none outside 1..56. -/
def Src.ofNum (n : Nat) : Option Src :=
  if h : 1 ≤ n ∧ n ≤ 56 then some ⟨n - 1, by omega⟩ else none

/-- Sources 49..56 are the direct lines L0..L7. -/
def Src.isDirect (i : Src) : Bool := decide (48 ≤ i.val)

/-- The direct line of a source, none for a field source. -/
def Src.line (i : Src) : Option (Fin 8) :=
  if h : 48 ≤ i.val then some ⟨i.val - 48, by omega⟩ else none

/-- The source of direct line k. -/
def Src.ofLine (k : Fin 8) : Src := ⟨48 + k.val, by omega⟩

/-- All sources in order of number. -/
def Src.all : List Src := List.finRange 56

/-- A table of n entries, entry by entry. -/
def tabulate {α : Type} {n : Nat} (f : Fin n → α) : Vector α n :=
  ⟨((List.finRange n).map f).toArray, by simp⟩

/-- A link character as the receiver sampled it: 8 data bits, the parity bit, and the stop bit (true: mark) (R130). -/
structure LinkChar where
  data : Byte
  parity : Bool
  stop : Bool
  deriving DecidableEq, Repr

/-- What the part samples after a poll's address or a clear's check: the slot of the reply window, counted from 1, in
which FDA first reads 0, and the 16 report bits and 8 check bits that follow it (R29, R30). -/
structure FieldReply where
  lead : Nat
  report : BitVec 16
  check : BitVec 8
  deriving DecidableEq, Repr

end Sys2Proof
end

