-- ==== Sys2Proof/Syntax.lean ====
section
/-! DEFINITION. The commands of the UQ-48: one constructor for each row of the table of operations and events. -/

namespace Sys2Proof

/-- The commands, in the table's order. A request row (ATTACH to UNKNOWN_REQUEST) is the execution, by the engine of the
port it names, of the frame at the head of that port's request queue (R155): its arguments are those of the frame. -/
inductive Instr where
  /-- FULL_RESET: power-on reset or assertion of NRST (R184). -/
  | fullReset
  /-- BOOT_LOAD_COMPLETE: the boot load completes (R185); `fatLow` is FAT as sampled at the choice its event makes (R20). -/
  | bootLoadComplete (fatLow : Bool)
  /-- LINE_SAMPLE: one 1 ms tick (R6, R116); bit k of `levels` is set when line Lk is high. -/
  | lineSample (levels : BitVec 8)
  /-- OFFER_EXPIRY of the offer timer of the port for the notice of the source (R119). -/
  | offerExpiry (p : Port) (src : Src)
  /-- SERVICE_EXPIRY of the service timer of the notice of the source (R124). -/
  | serviceExpiry (src : Src)
  /-- LINK_CHARACTER received on a port (R130). -/
  | linkCharacter (p : Port) (c : LinkChar)
  /-- FRAME_IDLE_TIMEOUT at a port (R135). -/
  | frameIdleTimeout (p : Port)
  /-- HUNT_END at a port (R133). -/
  | huntEnd (p : Port)
  /-- BREAK at a port (R140). -/
  | linkBreak (p : Port)
  /-- FRAME_SENT: the transmitter of a port has sent the last character it will send of the frame in hand (R143). -/
  | frameSent (p : Port)
  /-- FAT_LOW: the field attention wire goes low (R42). -/
  | fatLow
  /-- GAP_END: the 4-bit gap completes (R42); `fatLow` is FAT as sampled at the choice that follows (R20). -/
  | gapEnd (fatLow : Bool)
  /-- BID_ROUND_END with the bits sampled: 6 address bits, 16 report bits, 8 check bits (R24, R25); report and check are
  not sampled when the address reads 63. -/
  | bidRoundEnd (address : BitVec 6) (report : BitVec 16) (check : BitVec 8)
  /-- POLL_END of a master's poll (R39); none when FDA read 1 through the whole reply window. -/
  | pollEnd (reply : Option FieldReply)
  /-- CLEAR_END of a clear (R36, R37). -/
  | clearEnd (reply : Option FieldReply)
  /-- SCAN_STEP_END of a scan step (R41). -/
  | scanStepEnd (reply : Option FieldReply)
  /-- PASS_WALK: the next member of the pass list is walked (R88). -/
  | passWalk
  /-- ATTACH (R150). -/
  | attach (p : Port)
  /-- DETACH (R151). -/
  | detach (p : Port)
  /-- HOLD (R152). -/
  | hold (p : Port)
  /-- RESUME (R152). -/
  | resume (p : Port)
  /-- CLAIM (R101). -/
  | claim (p : Port)
  /-- RELEASE (R110). -/
  | release (p : Port)
  /-- CLOSE (R57). -/
  | close (p : Port)
  /-- POLL (R159). -/
  | poll (p : Port)
  /-- SWEEP (R161). -/
  | sweep (p : Port)
  /-- READ_ENTRY (R173). -/
  | readEntry (p : Port)
  /-- SOURCE_DISABLE: a SOURCE write whose content says Enabled no (R65, R4). -/
  | sourceDisable (p : Port)
  /-- SOURCE_ENABLE: a SOURCE write whose content says Enabled yes (R4). -/
  | sourceEnable (p : Port)
  /-- WRITE_SOURCE_ENTRY: a SOURCE write (R176). -/
  | writeSourceEntry (p : Port)
  /-- WRITE_CLASS_ENTRY: a CLASS write (R73). -/
  | writeClassEntry (p : Port)
  /-- WRITE_ORDER: an ORDER write (R78). -/
  | writeOrder (p : Port)
  /-- PORT_ENABLE: a PORT write whose content says Enabled yes (R149). -/
  | portEnable (p : Port)
  /-- PORT_DISABLE: a PORT write whose content says Enabled no (R149). -/
  | portDisable (p : Port)
  /-- BACKLOG_LIMIT_RAISE: a PORT write whose backlog limit is above the one in force (R80). -/
  | backlogLimitRaise (p : Port)
  /-- BACKLOG_LIMIT_LOWER: a PORT write whose backlog limit is below the one in force (R81). -/
  | backlogLimitLower (p : Port)
  /-- LINK_RATE_WRITE: a PORT write whose link rate differs from the entry's (R131). -/
  | linkRateWrite (p : Port)
  /-- WRITE_PORT_ENTRY: a PORT write (R176). -/
  | writePortEntry (p : Port)
  /-- WRITE_DEVICE_ENTRY: a DEVICE write (R32). -/
  | writeDeviceEntry (p : Port)
  /-- TAKE_RIGHT (R177). -/
  | takeRight (p : Port)
  /-- GIVE_RIGHT (R177). -/
  | giveRight (p : Port)
  /-- STORE (R179). -/
  | store (p : Port)
  /-- STORE_COMPLETE: the writing and read-back end; the operands are the image as read back (R180). -/
  | storeComplete (content : List Byte) (check : BitVec 16)
  /-- CLEAR_ALL (R189). -/
  | clearAll (p : Port)
  /-- STATUS (R158). -/
  | status (p : Port)
  /-- ACK_STATUS (R167). -/
  | ackStatus (p : Port)
  /-- RESUME_FIELD (R162); `fatLow` is FAT as sampled at the choice that a lifted suspension makes (R28, R42). -/
  | resumeField (p : Port) (fatLow : Bool)
  /-- UNKNOWN_REQUEST: the head frame's HEAD names no request kind (R156). -/
  | unknownRequest (p : Port)
  /-- LINE_RETURN_TO_MARK at a port whose receiver holds an all-space character (R139). -/
  | lineReturnToMark (p : Port)
  deriving DecidableEq, Repr

end Sys2Proof
end

