-- ==== Sys2Proof/WellFormed.lean ====
section
/-! DEFINITION. Which commands are well formed: the checks that the types of the operands do not already make. -/

namespace Sys2Proof

/-- The number of content bytes of the store image: 56 SOURCE entries of 5, 8 CLASS entries of 3, one ORDER entry of 8,
3 PORT entries of 7 and one DEVICE entry of 3 (R146, section 10.4). -/
def imageLength : Nat := 56 * 5 + 8 * 3 + 8 + 3 * 7 + 3

/-- A reply's lead slot is counted from 1 and lies within the largest reply window, 255 slots (R22, R29). -/
def FieldReply.wf (r : FieldReply) : Bool := decide (1 ≤ r.lead) && decide (r.lead ≤ 255)

/-- The operand of the end of a poll, a clear or a scan step. -/
def replyWf : Option FieldReply → Bool
  | none => true
  | some r => r.wf

/-- Whether a command is well formed. The other rows have no operand that could be ill formed. -/
def Instr.wf : Instr → Bool
  | .fullReset => true
  | .bootLoadComplete _ => true
  | .lineSample _ => true
  | .offerExpiry _ _ => true
  | .serviceExpiry _ => true
  | .linkCharacter _ _ => true
  | .frameIdleTimeout _ => true
  | .huntEnd _ => true
  | .linkBreak _ => true
  | .frameSent _ => true
  | .fatLow => true
  | .gapEnd _ => true
  | .bidRoundEnd _ _ _ => true
  | .pollEnd r => replyWf r
  | .clearEnd r => replyWf r
  | .scanStepEnd r => replyWf r
  | .passWalk => true
  | .attach _ => true
  | .detach _ => true
  | .hold _ => true
  | .resume _ => true
  | .claim _ => true
  | .release _ => true
  | .close _ => true
  | .poll _ => true
  | .sweep _ => true
  | .readEntry _ => true
  | .sourceDisable _ => true
  | .sourceEnable _ => true
  | .writeSourceEntry _ => true
  | .writeClassEntry _ => true
  | .writeOrder _ => true
  | .portEnable _ => true
  | .portDisable _ => true
  | .backlogLimitRaise _ => true
  | .backlogLimitLower _ => true
  | .linkRateWrite _ => true
  | .writePortEntry _ => true
  | .writeDeviceEntry _ => true
  | .takeRight _ => true
  | .giveRight _ => true
  | .store _ => true
  | .storeComplete content _ => decide (content.length = imageLength)
  | .clearAll _ => true
  | .status _ => true
  | .ackStatus _ => true
  | .resumeField _ _ => true
  | .unknownRequest _ => true
  | .lineReturnToMark _ => true

end Sys2Proof
end

