-- ==== Sys2Proof/Decode.lean ====
section
/-! DEFINITION. The command that a word of the table's bits spells. No row of the table gives bits, so no word spells a
command. -/

namespace Sys2Proof

/-- No row of spec/opcode_table.json gives its command any bits: a command is an event, not a word. -/
def decodeTableWord (_nbits _w : Nat) : Option Instr := none

end Sys2Proof
end

