-- ==== Sys2Proof/Config.lean ====
section
/-! DEFINITION. What is fixed for the part, and the free values: choices that the spec leaves open, of which nothing can
be proved. -/

namespace Sys2Proof

/-- FREE VALUE. The place of an item in an order that the spec leaves open, at the n-th use of a free value since
power-on: items are taken by rising place, and items of equal place in the order of their numbers (logs 6 and 7). -/
opaque Config.freePlace : Nat → Nat → Nat

/-- The filter count that the direct-line filters work with until the boot load completes (R6, R185). -/
def Config.bootFilterCount : Nat := 4

/-- The limit of the bid-failure run at which bidding is suspended (R27). -/
def Config.suspendAt : Nat := 4

/-- The length of the gap after a transaction, in field bit times (R21). -/
def Config.gapBits : Nat := 4

/-- The number of frames a request queue holds (R136). -/
def Config.requestQueueSize : Nat := 4

/-- The length of the response list at which execution of requests waits (R142). -/
def Config.responseLevel : Nat := 4

end Sys2Proof
end

