-- ==== Sys2Proof/Machine/Tables.lean ====
section
/-! DEFINITION. The configuration tables of the configuration unit (chapter 10): their entries, and the default tables. -/

namespace Sys2Proof.Machine

inductive RouteMode where
  | directed | shared
  deriving DecidableEq, Repr

inductive Polarity where
  | activeLow | activeHigh
  deriving DecidableEq, Repr

inductive CloseMode where
  | manual | auto
  deriving DecidableEq, Repr

/-- The link rates in bit/s, in the order of their codes (R130, R146). -/
inductive LinkRate where
  | r38400 | r115200 | r460800 | r921600
  deriving DecidableEq, Repr

/-- The field rates in kbit/s, in the order of their codes (R20, R146). -/
inductive FieldRate where
  | k62_5 | k125 | k250 | k500
  deriving DecidableEq, Repr

/-- A route: the primary port and up to two fallbacks (R1). -/
structure Route where
  primary : Port
  fallback1 : Option Port
  fallback2 : Option Port
  deriving DecidableEq, Repr

/-- The ports of a route in route order (R84). -/
def Route.ports (r : Route) : List Port := r.primary :: (r.fallback1.toList ++ r.fallback2.toList)

/-- An entry of the SOURCE table: the configuration fields of R1. The polarity of a field source is ACTIVE_LOW always:
the entry has no such field, it reads 0 and a write of it is ignored (R146, R173). -/
structure SourceCfg where
  enabled : Bool
  cls : Fin 8
  route : Route
  mode : RouteMode
  mask : CodeSet
  tag : Byte
  polarity : Polarity
  deriving DecidableEq, Repr

/-- An entry of the CLASS table (R73); a service limit of 0 means no limit. -/
structure ClassCfg where
  closeMode : CloseMode
  serviceLimit : BitVec 16
  deriving DecidableEq, Repr

/-- An entry of the PORT table (R173); an offer limit of 0 starts no timer. -/
structure PortCfg where
  enabled : Bool
  autoClear : Bool
  rate : LinkRate
  offerLimit : BitVec 16
  backlog : Byte
  classFilter : Byte
  eMap : DevSet
  wMap : DevSet
  deriving DecidableEq, Repr

/-- The DEVICE table (R20, R29, R6). -/
structure DeviceCfg where
  rate : FieldRate
  window : Byte
  filterCount : Byte
  deriving DecidableEq, Repr

/-- The five configuration tables; `order` lists the classes by rank position (R74). -/
structure Tables where
  sources : Vector SourceCfg 56
  classes : Vector ClassCfg 8
  order : List (Fin 8)
  ports : PerPort PortCfg
  device : DeviceCfg
  deriving DecidableEq, Repr

/-- The codes of the device conditions (R146). -/
def Cond.stranded : Nat := 0
def Cond.backlog : Nat := 1
def Cond.unreachable : Nat := 2
def Cond.fieldSuspended : Nat := 3
def Cond.storeBlank : Nat := 4
def Cond.storeFault : Nat := 5
def Cond.takeover : Nat := 6
def Cond.linkFault : Nat := 7

/-- The map that holds exactly the condition of code n. -/
def DevSet.single (n : Nat) : DevSet := BitVec.ofNat 8 (2 ^ n)

/-- The default SOURCE entry (R183). -/
def defaultSource : SourceCfg :=
  { enabled := false, cls := 7, route := ⟨.A, none, none⟩, mode := .directed, mask := 0x7FFF, tag := 0,
    polarity := .activeLow }

/-- The default CLASS entry (R183). -/
def defaultClass : ClassCfg := { closeMode := .manual, serviceLimit := 0 }

/-- The default PORT entry (R183): E map STRANDED, FIELD_SUSPENDED, STORE_FAULT; W map BACKLOG, UNREACHABLE, TAKEOVER,
LINK_FAULT, STORE_BLANK. -/
def defaultPort : PortCfg :=
  { enabled := true, autoClear := false, rate := .r115200, offerLimit := 500, backlog := 56, classFilter := 0xFF,
    eMap := 0x29, wMap := 0xD6 }

/-- The default DEVICE entry (R183). -/
def defaultDevice : DeviceCfg := { rate := .k125, window := 32, filterCount := 4 }

/-- The default tables (R183). -/
def defaultTables : Tables :=
  { sources := Vector.replicate 56 defaultSource, classes := Vector.replicate 8 defaultClass,
    order := [0, 1, 2, 3, 4, 5, 6, 7], ports := PerPort.all defaultPort, device := defaultDevice }

end Sys2Proof.Machine
end

