-- ==== Sys2Proof/Machine/State.lean ====
section
/-! DEFINITION. The state of the UQ-48, block by block as the table of section 0.3 lists them, the state after full
reset, and one accessor for each piece. -/

namespace Sys2Proof.Machine

/-- The stage (R184). -/
inductive Stage where
  | booting | scanning | running
  deriving DecidableEq, Repr

/-- The source state (R3); `opened` is OPEN. -/
inductive SourceState where
  | disabled | quiet | opened | closing
  deriving DecidableEq, Repr

inductive Reach where
  | reachable | unreachable
  deriving DecidableEq, Repr

/-- The debounced level of a direct line (R6). -/
inductive Level where
  | inactive | active
  deriving DecidableEq, Repr

/-- The runtime fields of a source (R2), less those of a direct line. -/
structure SourceRt where
  state : SourceState
  reach : Reach
  code15 : Bool
  reported : CodeSet
  arrears : CodeSet
  openings : BitVec 16
  failures : Nat
  deriving DecidableEq, Repr

/-- The runtime fields that only sources 49..56 have (R2); `latch` says whether the latch holds {0}. -/
structure LineRt where
  filtered : Level
  stability : Nat
  latch : Bool
  deriving DecidableEq, Repr

structure SourceUnit where
  rt : Vector SourceRt 56
  lines : Vector LineRt 8
  deriving DecidableEq, Repr

/-- The state of a notice, with the claimant where there is one (R46, R52). -/
inductive NoticeState where
  | waiting
  | claimed (p : Port)
  | stranded
  deriving DecidableEq, Repr

/-- A notice record with its timers (R46); the record of source i stands at place i of the table. A timer that stands at
0 has expired and its expiry event has not been taken yet (R116). -/
structure Notice where
  mark : BitVec 16
  cls : Fin 8
  mode : RouteMode
  conds : CodeSet
  state : NoticeState
  offers : PortSet
  tried : PortSet
  shown : Bool
  takeover : Bool
  order : Nat
  offerTimers : PerPort (Option Nat)
  serviceTimer : Option Nat
  deriving DecidableEq, Repr

structure NoticeTable where
  records : Vector (Option Notice) 56
  stranded : List Src
  nextOrder : Nat
  deriving DecidableEq, Repr

/-- The delivery queues, head first (R75), and the running pass (R88, R90): a pass runs while its list is not empty. -/
structure DeliveryUnit where
  queues : PerPort (List Src)
  passList : List Src
  passPending : Bool
  deriving DecidableEq, Repr

/-- A clear entry (R34). -/
structure ClearEntry where
  src : Src
  codes : CodeSet
  attempts : Nat
  deriving DecidableEq, Repr

/-- A poll entry (R38). -/
structure PollEntry where
  src : Src
  requesters : PortSet
  deriving DecidableEq, Repr

/-- What a transaction in flight carries (R42); a clear may be marked discarded (R35). -/
inductive BusWork where
  | bid
  | poll (e : PollEntry)
  | scan (src : Src)
  | clear (e : ClearEntry) (discarded : Bool)
  deriving DecidableEq, Repr

/-- A transaction in flight, with the field rate and reply window read at its opening edge (R32), and whether CLEAR_ALL
has been taken while it was in flight (R19, R45). -/
structure InFlight where
  work : BusWork
  rate : FieldRate
  window : Byte
  afterClearAll : Bool
  deriving DecidableEq, Repr

/-- The bus state (R42); a gap is timed at the rate of its transaction (R32). -/
inductive BusState where
  | idle
  | inFlight (t : InFlight)
  | gap (rate : FieldRate)
  deriving DecidableEq, Repr

/-- The previous kind (R42); `fresh` is NONE. -/
inductive PrevKind where
  | fresh | bid | work
  deriving DecidableEq, Repr

/-- The acknowledge slot that the part gave in the last transaction that ended (R25, R31): the model's own record. -/
inductive AckSlot where
  | notGiven | accepted | refused
  deriving DecidableEq, Repr

structure FieldBus where
  state : BusState
  clearList : List ClearEntry
  pollQueue : List PollEntry
  bidRun : Nat
  suspended : Bool
  prev : PrevKind
  cursor : Nat
  attempts : Nat
  fatLow : Bool
  ack : AckSlot
  deriving DecidableEq, Repr

/-- A port state; ATTACHED and HELD carry the offer window (R147, R93). -/
inductive PortState where
  | disabled
  | detached
  | attached (window : Nat)
  | held (window : Nat)
  deriving DecidableEq, Repr

/-- The receiver (R133, R134): in RECEIVING, the characters of the frame so far, and whether an all-space character is
held unjudged (R139). -/
inductive Receiver where
  | hunt
  | receiving (chars : List Byte) (held : Bool)
  deriving DecidableEq, Repr

/-- A request frame whole (R136); its LEN is the length of the payload. -/
structure Frame where
  head : Byte
  payload : List Byte
  deriving DecidableEq, Repr

/-- The statuses of responses (R146). -/
inductive Status where
  | ok | okAutoclosed | notReady | notAttached | badArg | unknown | busy | noRight | notOffered | taken | tooLate
  | notOwner | noReply | cancelled | storeFault
  deriving DecidableEq, Repr

/-- An entry of a response list (R141). -/
structure Response where
  kind : Byte
  status : Status
  data : List Byte
  deriving DecidableEq, Repr

/-- The reasons of a withdrawal (R56). -/
inductive Reason where
  | taken | expired | disabled | cleared
  deriving DecidableEq, Repr

/-- An entry of a withdrawal list (R112). -/
structure Withdrawal where
  src : Src
  mark : BitVec 16
  reason : Reason
  deriving DecidableEq, Repr

/-- What a NOTICE frame carries, taken when it begins (R72). -/
structure NoticeInfo where
  src : Src
  mark : BitVec 16
  cls : Fin 8
  conds : CodeSet
  tag : Byte
  shared : Bool
  takeover : Bool
  deriving DecidableEq, Repr

inductive TxBody where
  | response (r : Response)
  | withdrawn (w : Withdrawal)
  | notice (n : NoticeInfo)
  deriving DecidableEq, Repr

/-- A frame in transmission, with the flags its HEAD was formed with (R144). -/
structure TxFrame where
  e : Bool
  w : Bool
  lost : Bool
  body : TxBody
  deriving DecidableEq, Repr

/-- The transmitter: between frames, sending a frame, or sending the rest of the character at which a frame was cut off
(R140, R143). -/
inductive Transmitter where
  | idle
  | sending (f : TxFrame)
  | cutOff
  deriving DecidableEq, Repr

/-- The error counts, each 0..255 (R137). -/
structure ErrorCounts where
  parity : Nat
  framing : Nat
  check : Nat
  overrun : Nat
  deriving DecidableEq, Repr

/-- A link rate that waits to take effect, with the number of RESPONSE frames that must have been sent before (R131). -/
structure PendingRate where
  rate : LinkRate
  after : Nat
  deriving DecidableEq, Repr

structure PortEngine where
  state : PortState
  rx : Receiver
  requests : List Frame
  responses : List Response
  withdrawals : List Withdrawal
  tx : Transmitter
  lost : Bool
  errors : ErrorCounts
  rate : LinkRate
  ratePending : Option PendingRate
  deriving DecidableEq, Repr

/-- The latched set and the signalled set of each port (R165, R170). -/
structure Attention where
  latched : PerPort DevSet
  signalled : PerPort DevSet
  deriving DecidableEq, Repr

/-- The store image (section 10.4): the mark that it is valid, its content and its check. -/
structure StoreImage where
  valid : Bool
  content : List Byte
  check : BitVec 16
  deriving DecidableEq, Repr

/-- The store state; while WRITING, the tables being stored and the recipient of the response (R179). -/
inductive StoreState where
  | idle
  | writing (content : Tables) (recipient : Option Port)
  deriving DecidableEq, Repr

/-- The configuration unit, with the states that STORE_BLANK and STORE_FAULT follow (R163). -/
structure ConfigUnit where
  tables : Tables
  right : Option Port
  store : StoreState
  image : StoreImage
  storeBlank : Bool
  storeFault : Bool
  deriving DecidableEq, Repr

/-- The whole part, and the queue of the commands that wait, first in first out. `free` counts the uses of free values:
it is the model's own. -/
structure State where
  pending : List Instr
  stage : Stage
  sources : SourceUnit
  notices : NoticeTable
  delivery : DeliveryUnit
  bus : FieldBus
  engines : PerPort PortEngine
  attention : Attention
  config : ConfigUnit
  free : Nat
  deriving DecidableEq, Repr

/-- No command of the part stops it with a fault: what goes wrong is state (error counts, failed exchanges, refusing
responses), and an event that the state does not admit changes nothing (log 2). -/
inductive Fault
  deriving DecidableEq, Repr

inductive Refusal where
  /-- Raised by exec's arm of a command that has no meaning yet; safe. No arm raises it. -/
  | notModelled (mnemonic : String)
  deriving DecidableEq, Repr

/-- The runtime fields of a source at full reset (R18); the source state is set at the end of the boot load (log 11). -/
def SourceRt.reset : SourceRt :=
  { state := .disabled, reach := .reachable, code15 := false, reported := 0, arrears := 0, openings := 0, failures := 0 }

/-- A direct line at full reset (R18). -/
def LineRt.reset : LineRt := { filtered := .inactive, stability := 0, latch := false }

/-- The field bus controller at full reset (R44). -/
def FieldBus.reset : FieldBus :=
  { state := .idle, clearList := [], pollQueue := [], bidRun := 0, suspended := false, prev := .fresh, cursor := 49,
    attempts := 0, fatLow := false, ack := .notGiven }

/-- A port engine at full reset (R133, R136, R137, R138, R141, R147). -/
def PortEngine.reset : PortEngine :=
  { state := .disabled, rx := .hunt, requests := [], responses := [], withdrawals := [], tx := .idle, lost := false,
    errors := ⟨0, 0, 0, 0⟩, rate := .r115200, ratePending := none }

/-- A store that holds no valid image (log 9). -/
def StoreImage.blank : StoreImage := { valid := false, content := [], check := 0 }

/-- The part right after full reset: the stage is BOOTING (R184), no notice exists (R67), every queue and list is empty
(R75, R90, R115), every latched set is empty (R166), the right is free (R177) and no STORE is in flight (R181). The
tables hold the defaults until the load (log 10) and the store is blank (log 9). -/
def State.reset : State :=
  { pending := []
    stage := .booting
    sources := { rt := Vector.replicate 56 SourceRt.reset, lines := Vector.replicate 8 LineRt.reset }
    notices := { records := Vector.replicate 56 none, stranded := [], nextOrder := 0 }
    delivery := { queues := PerPort.all [], passList := [], passPending := false }
    bus := FieldBus.reset
    engines := PerPort.all PortEngine.reset
    attention := { latched := PerPort.all 0, signalled := PerPort.all 0 }
    config := { tables := defaultTables, right := none, store := .idle, image := StoreImage.blank, storeBlank := false,
                storeFault := false }
    free := 0 }

/-! ### Accessors -/

def State.src (s : State) (i : Src) : SourceRt := s.sources.rt.get i
def State.setSrc (s : State) (i : Src) (r : SourceRt) : State :=
  { s with sources := { s.sources with rt := s.sources.rt.set i.val r i.isLt } }

def State.line (s : State) (k : Fin 8) : LineRt := s.sources.lines.get k
def State.setLine (s : State) (k : Fin 8) (r : LineRt) : State :=
  { s with sources := { s.sources with lines := s.sources.lines.set k.val r k.isLt } }

def State.notice (s : State) (i : Src) : Option Notice := s.notices.records.get i
def State.setNotice (s : State) (i : Src) (n : Option Notice) : State :=
  { s with notices := { s.notices with records := s.notices.records.set i.val n i.isLt } }

def State.stranded (s : State) : List Src := s.notices.stranded
def State.setStranded (s : State) (l : List Src) : State :=
  { s with notices := { s.notices with stranded := l } }

def State.queue (s : State) (p : Port) : List Src := s.delivery.queues.get p
def State.setQueue (s : State) (p : Port) (q : List Src) : State :=
  { s with delivery := { s.delivery with queues := s.delivery.queues.set p q } }

def State.setPass (s : State) (l : List Src) (pend : Bool) : State :=
  { s with delivery := { s.delivery with passList := l, passPending := pend } }

def State.eng (s : State) (p : Port) : PortEngine := s.engines.get p
def State.setEng (s : State) (p : Port) (e : PortEngine) : State :=
  { s with engines := s.engines.set p e }

def State.latched (s : State) (p : Port) : DevSet := s.attention.latched.get p
def State.signalled (s : State) (p : Port) : DevSet := s.attention.signalled.get p
def State.setLatched (s : State) (p : Port) (m : DevSet) : State :=
  { s with attention := { s.attention with latched := s.attention.latched.set p m } }
def State.setSignalled (s : State) (p : Port) (m : DevSet) : State :=
  { s with attention := { s.attention with signalled := s.attention.signalled.set p m } }

def State.cfg (s : State) (i : Src) : SourceCfg := s.config.tables.sources.get i
def State.setCfg (s : State) (i : Src) (c : SourceCfg) : State :=
  { s with config := { s.config with tables := { s.config.tables with
      sources := s.config.tables.sources.set i.val c i.isLt } } }

def State.clsCfg (s : State) (k : Fin 8) : ClassCfg := s.config.tables.classes.get k
def State.setClsCfg (s : State) (k : Fin 8) (c : ClassCfg) : State :=
  { s with config := { s.config with tables := { s.config.tables with
      classes := s.config.tables.classes.set k.val c k.isLt } } }

def State.portCfg (s : State) (p : Port) : PortCfg := s.config.tables.ports.get p
def State.setPortCfg (s : State) (p : Port) (c : PortCfg) : State :=
  { s with config := { s.config with tables := { s.config.tables with ports := s.config.tables.ports.set p c } } }

def State.setBus (s : State) (b : FieldBus) : State := { s with bus := b }

end Sys2Proof.Machine
end

