-- ==== Sys2Proof/Machine/Operands.lean ====
section
/-! DEFINITION. The operand forms: check values (0.6), the layouts of link frames, table entries and the store image
(R146, section 10.4), request kinds and codes, and the judging of field-bus reports (R23, R29). -/

namespace Sys2Proof.Machine

/-! ### Check values (0.6, R23, R132) -/

/-- `f` applied n times. -/
def times {α : Type} : Nat → (α → α) → α → α
  | 0, _, x => x
  | n + 1, f, x => times n f (f x)

/-- One shift of a CRC register, most significant bit first. -/
def crcShift {w : Nat} (poly c : BitVec w) : BitVec w := if c.msb then (c <<< 1) ^^^ poly else c <<< 1

/-- The 8-bit CRC, polynomial x^8 + x^5 + x^4 + 1, start 0xFF, no final inversion. -/
def crc8 (bytes : List Byte) : BitVec 8 :=
  bytes.foldl (fun c b => times 8 (crcShift 0x31) (c ^^^ b)) 0xFF

/-- The 16-bit CRC, polynomial x^16 + x^12 + x^5 + 1, start 0xFFFF, no final inversion. -/
def crc16 (bytes : List Byte) : BitVec 16 :=
  bytes.foldl (fun c b => times 8 (crcShift 0x1021) (c ^^^ BitVec.shiftLeft (b.setWidth 16) 8)) 0xFFFF

/-- The check over the 16 bits of a report or clear set on the field bus, high byte first (R23). -/
def fieldCheck (bits : BitVec 16) : BitVec 8 := crc8 [(bits >>> 8).setWidth 8, bits.setWidth 8]

/-! ### Bytes -/

def boolNat (b : Bool) : Nat := if b then 1 else 0
def byteOf (n : Nat) : Byte := BitVec.ofNat 8 n

/-- A two-byte field, least significant byte first. -/
def le16 (v : BitVec 16) : List Byte := [v.setWidth 8, (v >>> 8).setWidth 8]

/-- The value of a two-byte field. -/
def ofLe16 (lo hi : Byte) : BitVec 16 := (hi.setWidth 16 <<< 8) ||| lo.setWidth 16

/-- The field of `width` bits of a byte from bit `low` on. -/
def bits (b : Byte) (low width : Nat) : Nat := b.toNat / 2 ^ low % 2 ^ width

def portCode : Option Port → Nat
  | none => 3
  | some p => p.index

/-! ### Request kinds (R146) -/

inductive ReqKind where
  | attach | detach | hold | resume | claim | release | close | poll | sweep | readEntry | writeEntry | takeRight
  | giveRight | store | clearAll | status | ackStatus | resumeField
  deriving DecidableEq, Repr

/-- The HEAD of each request kind. -/
def ReqKind.head : ReqKind → Byte
  | .attach => 0x10 | .detach => 0x11 | .hold => 0x12 | .resume => 0x13
  | .claim => 0x20 | .release => 0x21 | .close => 0x22 | .poll => 0x23 | .sweep => 0x24
  | .readEntry => 0x30 | .writeEntry => 0x31 | .takeRight => 0x32 | .giveRight => 0x33 | .store => 0x34
  | .clearAll => 0x35 | .status => 0x40 | .ackStatus => 0x41 | .resumeField => 0x42

def ReqKind.all : List ReqKind :=
  [.attach, .detach, .hold, .resume, .claim, .release, .close, .poll, .sweep, .readEntry, .writeEntry, .takeRight,
   .giveRight, .store, .clearAll, .status, .ackStatus, .resumeField]

/-- The request kind that a HEAD names, if any. -/
def ReqKind.ofHead (h : Byte) : Option ReqKind := ReqKind.all.find? (fun k => k.head == h)

/-- The content length of a writable table, none for SOURCE_STATE and codes above 5 (R146). -/
def contentLength : Nat → Option Nat
  | 0 => some 5 | 2 => some 3 | 3 => some 8 | 4 => some 7 | 5 => some 3 | _ => none

/-- The number of entries of a table and its first index (R173), none for a code above 5. -/
def indexRange : Nat → Option (Nat × Nat)
  | 0 => some (1, 56) | 1 => some (1, 56) | 2 => some (0, 7) | 3 => some (0, 0) | 4 => some (0, 2) | 5 => some (0, 0)
  | _ => none

/-- Whether the index lies within the range of the table. -/
def indexOk (table index : Nat) : Bool :=
  match indexRange table with
  | none => false
  | some (lo, hi) => decide (lo ≤ index) && decide (index ≤ hi)

/-- The n-th payload byte as a number, 0 where the payload is shorter. -/
def Frame.byte (f : Frame) (n : Nat) : Byte := f.payload.getD n 0

/-- The mark in payload bytes 1 and 2 of a CLAIM, RELEASE or CLOSE. -/
def Frame.mark (f : Frame) : BitVec 16 := ofLe16 (f.byte 1) (f.byte 2)

/-- The clear set in payload bytes 3 and 4 of a CLOSE. -/
def Frame.clearSet (f : Frame) : CodeSet := ofLe16 (f.byte 3) (f.byte 4)

/-- The content of a WRITE_ENTRY: the payload from byte 2 on. -/
def Frame.content (f : Frame) : List Byte := f.payload.drop 2

/-- Check 2 of R156: LEN is the length that the kind requires. -/
def lengthOk (k : ReqKind) (f : Frame) : Bool :=
  match k with
  | .attach | .poll | .ackStatus => f.payload.length == 1
  | .claim | .release => f.payload.length == 3
  | .close => f.payload.length == 5
  | .readEntry => f.payload.length == 2
  | .writeEntry =>
    match f.payload with
    | [] => false
    | t :: _ =>
      match contentLength t.toNat with
      | none => false
      | some n => f.payload.length == 2 + n
  | .detach | .hold | .resume | .sweep | .takeRight | .giveRight | .store | .clearAll | .status | .resumeField =>
    f.payload.length == 0

/-- Check 3 of R156: the kinds that SCANNING admits. -/
def ReqKind.inScanning : ReqKind → Bool
  | .attach | .detach | .hold | .resume | .readEntry | .takeRight | .giveRight | .status | .ackStatus => true
  | .claim | .release | .close | .poll | .sweep | .resumeField | .writeEntry | .store | .clearAll => false

/-- Check 4 of R156: the kinds that a DETACHED port admits. -/
def ReqKind.atDetached : ReqKind → Bool
  | .attach | .readEntry | .status | .ackStatus => true
  | .detach | .hold | .resume | .claim | .release | .close | .poll | .sweep | .resumeField | .writeEntry | .store
  | .clearAll | .takeRight | .giveRight => false

/-- Check 5 of R156: the ranges of R157. -/
def argsOk (k : ReqKind) (f : Frame) : Bool :=
  match k with
  | .attach => decide (1 ≤ (f.byte 0).toNat) && decide ((f.byte 0).toNat ≤ 4)
  | .claim | .release | .poll => (Src.ofNum (f.byte 0).toNat).isSome
  | .close => (Src.ofNum (f.byte 0).toNat).isSome && (f.clearSet != 0)
  | .readEntry | .writeEntry => indexOk (f.byte 0).toNat (f.byte 1).toNat
  | .ackStatus | .detach | .hold | .resume | .sweep | .takeRight | .giveRight | .store | .clearAll | .status
  | .resumeField => true

/-! ### Codes of fields (R146) -/

def Status.code : Status → Byte
  | .ok => 0x00 | .okAutoclosed => 0x01 | .notReady => 0x10 | .notAttached => 0x11 | .badArg => 0x12
  | .unknown => 0x13 | .busy => 0x14 | .noRight => 0x15 | .notOffered => 0x20 | .taken => 0x21 | .tooLate => 0x22
  | .notOwner => 0x23 | .noReply => 0x30 | .cancelled => 0x31 | .storeFault => 0x32

def Reason.code : Reason → Byte
  | .taken => 0 | .expired => 1 | .disabled => 2 | .cleared => 3

def Stage.code : Stage → Nat
  | .booting => 0 | .scanning => 1 | .running => 2

def PortState.code : PortState → Nat
  | .disabled => 0 | .detached => 1 | .attached _ => 2 | .held _ => 3

/-- The offer window, 0 where the port has none. -/
def PortState.window : PortState → Nat
  | .attached w => w | .held w => w | .disabled => 0 | .detached => 0

/-- ATTACHED or HELD. -/
def PortState.isOn : PortState → Bool
  | .attached _ => true | .held _ => true | .disabled => false | .detached => false

def SourceState.code : SourceState → Nat
  | .disabled => 0 | .quiet => 1 | .opened => 2 | .closing => 3

def Reach.code : Reach → Nat
  | .reachable => 0 | .unreachable => 1

def LinkRate.code : LinkRate → Nat
  | .r38400 => 0 | .r115200 => 1 | .r460800 => 2 | .r921600 => 3

def LinkRate.ofCode : Nat → LinkRate
  | 0 => .r38400 | 1 => .r115200 | 2 => .r460800 | _ => .r921600

def FieldRate.code : FieldRate → Nat
  | .k62_5 => 0 | .k125 => 1 | .k250 => 2 | .k500 => 3

def FieldRate.ofCode : Nat → FieldRate
  | 0 => .k62_5 | 1 => .k125 | 2 => .k250 | _ => .k500

/-! ### Entry contents (R146) and their ranges (R175) -/

def encodeSource (c : SourceCfg) : List Byte :=
  [byteOf (boolNat c.enabled + 2 * boolNat (c.mode == .shared) + 4 * boolNat (c.polarity == .activeHigh) + 8 * c.cls.val),
   byteOf (c.route.primary.index + 4 * portCode c.route.fallback1 + 16 * portCode c.route.fallback2)] ++
  le16 c.mask ++ [c.tag]

/-- A route names no port twice, and has no second fallback without a first (R175). -/
def Route.ok (r : Route) : Bool :=
  decide r.ports.Nodup && (r.fallback1.isSome || r.fallback2.isNone)

/-- The SOURCE entry of a content, none where a value is out of range (R175). -/
def decodeSource (i : Src) : List Byte → Option SourceCfg
  | [b0, b1, m0, m1, tag] =>
    match Port.ofCode (bits b1 0 2) with
    | none => none
    | some prim =>
      let route : Route := ⟨prim, Port.ofCode (bits b1 2 2), Port.ofCode (bits b1 4 2)⟩
      let mask := ofLe16 m0 m1
      if route.ok && !CodeSet.has15 mask then
        some { enabled := b0.getLsbD 0, cls := Fin.ofNat 8 (bits b0 3 3), route := route,
               mode := if b0.getLsbD 1 then .shared else .directed, mask := mask, tag := tag,
               polarity := if i.isDirect && b0.getLsbD 2 then .activeHigh else .activeLow }
      else none
  | _ => none

def encodeClass (c : ClassCfg) : List Byte := byteOf (boolNat (c.closeMode == .auto)) :: le16 c.serviceLimit

def decodeClass : List Byte → Option ClassCfg
  | [m, l0, l1] =>
    if m = 0 then some ⟨.manual, ofLe16 l0 l1⟩ else if m = 1 then some ⟨.auto, ofLe16 l0 l1⟩ else none
  | _ => none

def encodeOrder (o : List (Fin 8)) : List Byte := o.map (fun k => byteOf k.val)

/-- A rank list is a permutation of the eight classes (R74). -/
def orderOk (o : List (Fin 8)) : Bool := o.length == 8 && decide o.Nodup

def decodeOrder (l : List Byte) : Option (List (Fin 8)) :=
  if l.all (fun b => decide (b.toNat < 8)) then
    let o := l.map (fun b => Fin.ofNat 8 b.toNat)
    if orderOk o then some o else none
  else none

def encodePort (c : PortCfg) : List Byte :=
  [byteOf (boolNat c.enabled + 2 * boolNat c.autoClear + 4 * c.rate.code)] ++ le16 c.offerLimit ++
  [c.backlog, c.classFilter, c.eMap, c.wMap]

def decodePort : List Byte → Option PortCfg
  | [b0, l0, l1, backlog, filter, e, w] =>
    if 1 ≤ backlog.toNat ∧ backlog.toNat ≤ 56 then
      some { enabled := b0.getLsbD 0, autoClear := b0.getLsbD 1, rate := LinkRate.ofCode (bits b0 2 2),
             offerLimit := ofLe16 l0 l1, backlog := backlog, classFilter := filter, eMap := e, wMap := w }
    else none
  | _ => none

def encodeDevice (c : DeviceCfg) : List Byte := [byteOf c.rate.code, c.window, c.filterCount]

/-- The DEVICE entry of a content. The layout gives the field rate the values 0..3 in byte 0 and names no bits of it: that
the rate is read from bits 1 and 0, and bits 7 to 2 are ignored as unnamed, is the model's choice (log 33). -/
def decodeDevice : List Byte → Option DeviceCfg
  | [r, w, n] =>
    if 8 ≤ w.toNat ∧ 1 ≤ n.toNat ∧ n.toNat ≤ 15 then some ⟨FieldRate.ofCode (bits r 0 2), w, n⟩ else none
  | _ => none

/-! ### The store image (section 10.4; the byte layout is log 12) -/

def encodeTables (t : Tables) : List Byte :=
  t.sources.toList.flatMap encodeSource ++ t.classes.toList.flatMap encodeClass ++ encodeOrder t.order ++
  Port.all.flatMap (fun p => encodePort (t.ports.get p)) ++ encodeDevice t.device

/-- The k bytes from place `at` on. -/
def slice (l : List Byte) (start k : Nat) : List Byte := (l.drop start).take k

/-- The tables of an image content, none where a field is outside the ranges of R175 (R182). -/
def decodeTables (l : List Byte) : Option Tables :=
  let srcAt (i : Src) := decodeSource i (slice l (5 * i.val) 5)
  let clsAt (k : Fin 8) := decodeClass (slice l (280 + 3 * k.val) 3)
  let portAt (p : Port) := decodePort (slice l (312 + 7 * p.index) 7)
  match decodeOrder (slice l 304 8), decodeDevice (slice l 333 3) with
  | some order, some device =>
    if l.length == imageLength && Src.all.all (fun i => (srcAt i).isSome) &&
        (List.finRange 8).all (fun k => (clsAt k).isSome) && Port.all.all (fun p => (portAt p).isSome) then
      some { sources := tabulate (fun i => (srcAt i).getD defaultSource)
             classes := tabulate (fun k => (clsAt k).getD defaultClass)
             order := order
             ports := PerPort.build (fun p => (portAt p).getD defaultPort)
             device := device }
    else none
  | _, _ => none

/-- The tables of a valid image: not marked invalid, with a good check, and every field in range (R182). -/
def StoreImage.load (m : StoreImage) : Option Tables :=
  if m.valid && (crc16 m.content == m.check) then decodeTables m.content else none

/-! ### Frames sent by the part (R146) -/

def NoticeInfo.payload (n : NoticeInfo) : List Byte :=
  [byteOf n.src.num] ++ le16 n.mark ++ [byteOf n.cls.val] ++ le16 n.conds ++
  [n.tag, byteOf (boolNat n.shared + 2 * boolNat n.takeover)]

def Withdrawal.payload (w : Withdrawal) : List Byte := [byteOf w.src.num] ++ le16 w.mark ++ [w.reason.code]

def Response.payload (r : Response) : List Byte := [r.kind, r.status.code] ++ r.data

def TxBody.payload : TxBody → List Byte
  | .response r => r.payload
  | .withdrawn w => w.payload
  | .notice n => n.payload

/-- The frame class in bits 7 and 6 of the HEAD. -/
def TxBody.cls : TxBody → Nat
  | .response _ => 1 | .notice _ => 2 | .withdrawn _ => 3

def TxFrame.head (f : TxFrame) : Byte :=
  byteOf (64 * f.body.cls + 32 * boolNat f.e + 16 * boolNat f.w + 8 * boolNat f.lost)

/-- A frame's bytes as sent: HEAD, LEN, payload and CHECK (R132, R146). -/
def TxFrame.bytes (f : TxFrame) : List Byte :=
  let body := [f.head, byteOf f.body.payload.length] ++ f.body.payload
  body ++ [crc8 body]

/-- A request frame's bytes as a master sends them. -/
def Frame.bytes (f : Frame) : List Byte :=
  let body := [f.head, byteOf f.payload.length] ++ f.payload
  body ++ [crc8 body]

/-! ### Characters (R130) -/

/-- Whether a byte holds an odd number of ones. -/
def oddOnes (b : Byte) : Bool := (List.range 8).foldl (fun acc k => xor acc (b.getLsbD k)) false

/-- Whether the data bits and the parity bit together hold an odd number of ones. -/
def oddParity (c : LinkChar) : Bool := oddOnes c.data != c.parity

/-- A byte as a character with its parity odd and its stop bit at mark: the character that the part sends for it. -/
def goodChar (b : Byte) : LinkChar := { data := b, parity := !oddOnes b, stop := true }

/-- The levels of a character on its line, one for each bit time, true for mark: the start bit at space, the data bits
from the least significant on, the parity bit and the stop bit. -/
def charLine (c : LinkChar) : List Bool :=
  false :: (List.range 8).map (fun k => c.data.getLsbD k) ++ [c.parity, c.stop]

/-- The levels of a frame that the part sends: its characters back to back. -/
def TxFrame.line (f : TxFrame) : List Bool := f.bytes.flatMap (fun b => charLine (goodChar b))

/-- The level of a transmit line n bit times after the frame in hand began: the line is idle at mark after a frame and
while none is chosen. Of a frame that was cut off, none: which character was in progress is not counted (log 15). -/
def Transmitter.level : Transmitter → Nat → Option Bool
  | .idle, _ => some true
  | .sending f, n => some (f.line.getD n true)
  | .cutOff, _ => none

/-- A link rate in bit/s. -/
def LinkRate.bitsPerSecond : LinkRate → Nat
  | .r38400 => 38400 | .r115200 => 115200 | .r460800 => 460800 | .r921600 => 921600

/-- The time of one character, 11 bit times, in tenths of a microsecond, to the nearest. -/
def LinkRate.charTime (r : LinkRate) : Nat := (11 * 10 ^ 7 + r.bitsPerSecond / 2) / r.bitsPerSecond

/-- A character whose 11 bits all read space. -/
def allSpace (c : LinkChar) : Bool := c.data == 0 && !c.parity && !c.stop

/-- How a character is judged when it is not all space. -/
inductive CharVerdict where
  | good | framing | parity
  deriving DecidableEq, Repr

/-- A character with both errors is judged a framing error alone. -/
def judgeChar (c : LinkChar) : CharVerdict :=
  if !c.stop then .framing else if oddParity c then .good else .parity

/-! ### Field-bus transactions (R22 to R31) -/

/-- The outcome of a poll, a clear or a scan step (R29, R30). -/
inductive BusOutcome where
  | replied (report : CodeSet)
  | badCheck
  | noReply
  deriving DecidableEq, Repr

/-- A reply is taken when its lead slot lies in the reply window of W slots; a good one gives its report less code 15
(R29, R5). -/
def busOutcome (window : Byte) : Option FieldReply → BusOutcome
  | none => .noReply
  | some r =>
    if r.lead ≤ window.toNat then
      if fieldCheck r.report = r.check then .replied (CodeSet.less15 r.report) else .badCheck
    else .noReply

/-- The acknowledge slot of a poll or a clear (R31). -/
def BusOutcome.ack : BusOutcome → AckSlot
  | .replied _ => .accepted
  | .badCheck => .refused
  | .noReply => .notGiven

/-- The outcome of a bid round (R25). -/
inductive BidOutcome where
  | won (src : Src) (report : CodeSet)
  | garbled (src : Src)
  | stray
  | empty
  deriving DecidableEq, Repr

/-- The field source of an address read, none outside 1..48. -/
def fieldSource (address : BitVec 6) : Option Src :=
  if address.toNat ≤ 48 then Src.ofNum address.toNat else none

def bidOutcome (address : BitVec 6) (report : BitVec 16) (check : BitVec 8) : BidOutcome :=
  if address = 63 then .empty
  else
    match fieldSource address with
    | none => .stray
    | some i => if fieldCheck report = check then .won i (CodeSet.less15 report) else .garbled i

/-- The acknowledge slot of a bid round (R25). -/
def BidOutcome.ack : BidOutcome → AckSlot
  | .won _ _ => .accepted
  | .garbled _ => .refused
  | .stray => .refused
  | .empty => .notGiven

/-- One address slot of a bid round: the slot reads 0 when any bidder drives 0, and the bidders that released FDA and
read 0 have lost (R24). -/
def bidSlot (k : Nat) (bidders : List (BitVec 6)) : Bool × List (BitVec 6) :=
  let reads := bidders.all (fun a => a.getLsbD k)
  (reads, if reads then bidders else bidders.filter (fun a => !a.getLsbD k))

/-- The address read over the slots of bits k - 1 down to 0, as a number. -/
def bidSlots : Nat → List (BitVec 6) → Nat
  | 0, _ => 0
  | k + 1, bidders =>
    let r := bidSlot k bidders
    boolNat r.1 * 2 ^ k + bidSlots k r.2

/-- The address read when the given sources bid as R24 states. -/
def addressRead (bidders : List (BitVec 6)) : BitVec 6 := BitVec.ofNat 6 (bidSlots 6 bidders)

/-- The bits of a word, most significant first. -/
def msbBits {w : Nat} (v : BitVec w) : List Bool := (List.range w).map (fun k => v.getLsbD (w - 1 - k))

/-- The slots that the part drives at the start of a transaction, in order (R22): the opener; for a poll or scan step
the address; for a clear the address, the clear set with code 15 absent, and the check over it (R30). -/
def BusWork.drivenSlots : BusWork → List Bool
  | .bid => [false, true, false, true]
  | .poll e => [false, true, true, false] ++ msbBits (BitVec.ofNat 6 e.src.num)
  | .scan i => [false, true, true, false] ++ msbBits (BitVec.ofNat 6 i.num)
  | .clear e _ => [false, false, true, true] ++ msbBits (BitVec.ofNat 6 e.src.num) ++ msbBits (CodeSet.less15 e.codes) ++
      msbBits (fieldCheck (CodeSet.less15 e.codes))

/-! ### The wires FCK and FDA (R20 to R22) -/

/-- What the part samples in a transaction, by its kind: the bits of a bid round, or the reply to a poll, a scan step or a
clear. -/
inductive Heard where
  | round (address : BitVec 6) (report : BitVec 16) (check : BitVec 8)
  | reply (r : Option FieldReply)
  deriving DecidableEq, Repr

/-- The bit that the part drives in an acknowledge slot: 0 accepts, and released FDA refuses; none where there is no
slot (R25, R31). -/
def AckSlot.driven : AckSlot → List (Option Bool)
  | .notGiven => []
  | .accepted => [some false]
  | .refused => [some true]

/-- The slots of a transaction, in order, each with the bit that the part drives in it, none in a slot that belongs to a
source (R22): after the slots that the part drives, the address of a bid round and the reply window of any other, up to
its lead slot, the report and check slots, and the acknowledge slot. -/
def InFlight.slots (t : InFlight) (heard : Heard) : List (Option Bool) :=
  t.work.drivenSlots.map some ++
    match heard with
    | .round address report check =>
      List.replicate (if address = 63 then 6 else 30) none ++ (bidOutcome address report check).ack.driven
    | .reply none => List.replicate t.window.toNat none
    | .reply (some r) =>
      List.replicate (if r.lead ≤ t.window.toNat then r.lead + 24 else t.window.toNat) none ++
        (busOutcome t.window (some r)).ack.driven

/-- What the part does with the two wires that it drives: the level of FCK, and whether it pulls FDA low. -/
structure WireDrive where
  fckHigh : Bool
  fdaLow : Bool
  deriving DecidableEq, Repr

/-- FCK high and FDA released: the wires between transactions (R20). -/
def WireDrive.rest : WireDrive := { fckHigh := true, fdaLow := false }

/-- The two halves of a slot: FCK low and then high, and FDA low where the part drives 0 (R21). -/
def slotHalves (bit : Option Bool) : List WireDrive :=
  [{ fckHigh := false, fdaLow := bit == some false }, { fckHigh := true, fdaLow := bit == some false }]

/-- What the part drives at half slot h of a transaction, counted from the opening edge, which pulls FDA low while FCK is
high; after the last slot the wires rest (R21). -/
def InFlight.drive (t : InFlight) (heard : Heard) (h : Nat) : WireDrive :=
  ({ fckHigh := true, fdaLow := true } :: (t.slots heard).flatMap slotHalves).getD h WireDrive.rest

/-- What the part drives on the field bus, at half slot h of the transaction where one is in flight: through BOOTING, in
the IDLE state and in a gap the wires rest (R20, R21, R44; log 18). -/
def State.drive (s : State) (heard : Heard) (h : Nat) : WireDrive :=
  match s.bus.state with
  | .idle => WireDrive.rest
  | .gap _ => WireDrive.rest
  | .inFlight t => t.drive heard h

/-- One field bit time in microseconds (R20). -/
def FieldRate.bitTime : FieldRate → Nat
  | .k62_5 => 16 | .k125 => 8 | .k250 => 4 | .k500 => 2

/-- The length of a gap in microseconds: 4 field bit times (R21). -/
def FieldRate.gapTime (r : FieldRate) : Nat := Config.gapBits * r.bitTime

end Sys2Proof.Machine
end

