-- ==== Sys2Proof/Machine/Flags.lean ====
section
/-! DEFINITION. The attention unit (chapter 9): present conditions, latching, the E and W flags, the signalled set of
auto-clear, and the request lines. -/

namespace Sys2Proof.Machine

/-- The number of notices offered to a port (R92). -/
def State.offerCount (s : State) (p : Port) : Nat :=
  (Src.all.filter (fun i => match s.notice i with
    | some n => n.offers.has p
    | none => false)).length

/-- The backlog limit of a port (R79). -/
def State.backlogLimit (s : State) (p : Port) : Nat := (s.portCfg p).backlog.toNat

/-- Whether BACKLOG is present at a port (R79). -/
def State.backlogged (s : State) (p : Port) : Bool := (s.queue p).length == s.backlogLimit p

/-- Whether some enabled source is UNREACHABLE (R17). -/
def State.anyUnreachable (s : State) : Bool :=
  Src.all.any (fun i => (s.cfg i).enabled && (s.src i).reach == .unreachable)

/-- The conditions present at a port (R163); TAKEOVER and LINK_FAULT are events and never present (R164). -/
def State.present (s : State) (p : Port) : DevSet :=
  byteOf (boolNat (!s.stranded.isEmpty) + 2 * boolNat (s.backlogged p) + 4 * boolNat s.anyUnreachable +
    8 * boolNat s.bus.suspended + 16 * boolNat s.config.storeBlank + 32 * boolNat s.config.storeFault)

/-- Codes join a port's latched set anew; they leave its signalled set, since the renewal has not been signalled (R165,
R170). -/
def State.gain (s : State) (p : Port) (codes : DevSet) : State :=
  (s.setLatched p (s.latched p ||| codes)).setSignalled p (s.signalled p &&& ~~~codes)

/-- The conditions that are present at p in `new` and were not in `old`. -/
def risen (old new : State) (p : Port) : DevSet := new.present p &&& ~~~(old.present p)

/-- After a change from `old` to `new`, the conditions that became present latch at each port (R163, R165). -/
def State.latchRisen (old new : State) : State :=
  { new with attention :=
    { latched := PerPort.build (fun p => new.latched p ||| risen old new p)
      signalled := PerPort.build (fun p => new.signalled p &&& ~~~(risen old new p)) } }

/-- An event condition occurs at a port (R164, R165). -/
def State.occur (s : State) (p : Port) (code : Nat) : State := s.gain p (DevSet.single code)

/-- The E flag of a frame that begins now (R169). -/
def State.eFlag (s : State) (p : Port) : Bool := (s.latched p &&& (s.portCfg p).eMap) != 0

/-- The W flag of a frame that begins now (R169). -/
def State.wFlag (s : State) (p : Port) : Bool := (s.latched p &&& (s.portCfg p).wMap) != 0

/-- The signalled set that a frame beginning now gives its port (R170). -/
def State.signalSet (s : State) (p : Port) : DevSet :=
  if (s.portCfg p).autoClear && (s.eFlag p || s.wFlag p) then
    s.latched p &&& ((s.portCfg p).eMap ||| (s.portCfg p).wMap)
  else 0

/-- The end of a frame that was sent whole: its signalled codes that are not present leave the latched set (R170). -/
def State.autoClear (s : State) (p : Port) : State :=
  (s.setLatched p (s.latched p &&& ~~~(s.signalled p &&& ~~~(s.present p)))).setSignalled p 0

/-- ACK_STATUS at a port: the named codes leave the latched set, and those that are present join it again (R167). R168
says in its third row that a code acknowledged before its condition ceases is not latched again; that the code is latched
again while the condition lasts, and stays when it ceases (R165, R167), is the model's choice (log 35). -/
def State.acknowledge (s : State) (p : Port) (named : DevSet) : State :=
  (s.setLatched p (s.latched p &&& ~~~named)).gain p (named &&& s.present p)

/-- Whether the request line NREQ of a port is asserted (R171). -/
def State.nreq (s : State) (p : Port) : Bool :=
  (s.eng p).state.isOn && (decide (0 < s.offerCount p) || s.eFlag p)

end Sys2Proof.Machine
end

