-- ==== Sys2Proof/Machine/Ops.lean ====
section
/-! DEFINITION. The shared operations: orders, queues and walks, the re-placement pass, the end of a notice, reports and
failed exchanges, the field-bus arbiter, the detach effects, and the transmitters' choice of frames. -/

namespace Sys2Proof.Machine

/-! ### Small updates -/

/-- Changes the record of a source's notice, if there is one. -/
def State.modNotice (s : State) (i : Src) (f : Notice → Notice) : State :=
  match s.notice i with
  | none => s
  | some n => s.setNotice i (some (f n))

/-- Appends a response to a port's response list (R141). -/
def State.respond (s : State) (p : Port) (r : Response) : State :=
  s.setEng p { s.eng p with responses := (s.eng p).responses ++ [r] }

/-- Appends a withdrawal to a port's withdrawal list (R112). -/
def State.withdraw (s : State) (p : Port) (w : Withdrawal) : State :=
  s.setEng p { s.eng p with withdrawals := (s.eng p).withdrawals ++ [w] }

/-- The sources whose notice satisfies a test, in order of number. -/
def State.noticesWith (s : State) (test : Notice → Bool) : List Src :=
  Src.all.filter (fun i => match s.notice i with
    | some n => test n
    | none => false)

/-! ### Orders -/

/-- The lexicographic order of two keys. -/
def keyBefore (a b : Nat × Nat) : Bool := decide (a.1 < b.1) || (a.1 == b.1 && decide (a.2 < b.2))

/-- Inserts an item after every item of a smaller key and before the first of any other (R76, R69). -/
def insertByKey {α : Type} (key : α → Nat × Nat) (x : α) : List α → List α
  | [] => [x]
  | y :: l => if keyBefore (key y) (key x) then y :: insertByKey key x l else x :: y :: l

/-- A list put in the order of its keys. -/
def sortByKey {α : Type} (key : α → Nat × Nat) (l : List α) : List α := l.foldr (insertByKey key) []

/-- The opening order of a source's notice (R47). -/
def State.openingOrder (s : State) (i : Src) : Nat :=
  match s.notice i with
  | some n => n.order
  | none => 0

/-- The rank position of a class in the rank order in force (R74). -/
def State.rankOf (s : State) (k : Fin 8) : Nat := s.config.tables.order.idxOf k

/-- The key that orders a delivery queue: rank position, then opening order (R76). -/
def State.queueKey (s : State) (i : Src) : Nat × Nat :=
  match s.notice i with
  | some n => (s.rankOf n.cls, n.order)
  | none => (0, 0)

/-- The key of opening order alone. -/
def State.ageKey (s : State) (i : Src) : Nat × Nat := (0, s.openingOrder i)

/-- The key of an order that the spec leaves open (logs 6 and 7). -/
def State.freeKey (s : State) (i : Src) : Nat × Nat := (Config.freePlace s.free i.num, i.num)

/-- Sources in an order that the spec leaves open. -/
def State.inFreeOrder (s : State) (l : List Src) : List Src := sortByKey s.freeKey l

/-- An order of two or more items uses up a free value. -/
def State.spendFree (s : State) (l : List Src) : State := { s with free := if 2 ≤ l.length then s.free + 1 else s.free }

/-! ### The re-placement pass (R88, R89, R90) -/

/-- A trigger begins a pass over a copy of the stranded list, or is remembered while a pass runs (R90). -/
def State.triggerPass (s : State) : State :=
  match s.delivery.passList with
  | [] => s.setPass s.stranded s.delivery.passPending
  | l => s.setPass l true

/-- When the pass list is empty the pass ends, and a remembered trigger begins a further pass (R90). -/
def State.endPass (s : State) : State :=
  match s.delivery.passList with
  | [] => if s.delivery.passPending then s.setPass s.stranded false else s
  | _ :: _ => s

/-! ### Queues, walks and stranding (R76, R83 to R87) -/

/-- Whether a notice has a reference or an offer anywhere (R53). -/
def State.hasPlace (s : State) (i : Src) : Bool :=
  Port.all.any (fun p => (s.queue p).contains i) ||
    match s.notice i with
    | some n => !n.offers.isEmpty
    | none => false

/-- Whether a walk of the notice of source i may insert a reference at p: none of the skip conditions of R84 holds. -/
def State.eligible (s : State) (i : Src) (n : Notice) (p : Port) : Bool :=
  !n.tried.has p && (s.eng p).state.isOn && (s.portCfg p).classFilter.getLsbD n.cls.val &&
    !(s.queue p).contains i && !n.offers.has p && decide ((s.queue p).length < s.backlogLimit p)

/-- Inserts a reference at p in the queue's order (R76); BACKLOG may become present (R79). -/
def State.insertRef (s : State) (p : Port) (i : Src) : State :=
  State.latchRisen s (s.setQueue p (insertByKey s.queueKey i (s.queue p)))

/-- A notice that receives a reference is WAITING and leaves the stranded list (R70, R85). -/
def State.giveRef (s : State) (i : Src) (p : Port) : State :=
  let s := s.insertRef p i
  let s := s.modNotice i (fun n => { n with state := .waiting })
  s.setStranded (s.stranded.filter (fun j => j != i))

/-- The notice becomes STRANDED, its tried set becomes empty and it joins the stranded list by opening order (R69). -/
def State.strand (s : State) (i : Src) : State :=
  let s1 := s.modNotice i (fun n => { n with state := .stranded, tried := PortSet.empty })
  State.latchRisen s (s1.setStranded (insertByKey s.ageKey i s.stranded))

/-- The references of a walk: one at the first eligible port of the route for a DIRECTED notice, one at every eligible
port, each judged as it is reached, for a SHARED notice (R85). -/
def State.placeRefs (s : State) (i : Src) (n : Notice) : State :=
  match n.mode with
  | .directed =>
    match (s.cfg i).route.ports.find? (s.eligible i n) with
    | some p => s.giveRef i p
    | none => s
  | .shared => (s.cfg i).route.ports.foldl (fun t p => if t.eligible i n p then t.giveRef i p else t) s

/-- The placement walk of a notice (R83 to R87): it receives references, or strands when it is left with none and no
offer; a STRANDED notice that no port can take stays where it is. -/
def State.walk (s : State) (i : Src) : State :=
  match s.notice i with
  | none => s
  | some n =>
    let s := s.placeRefs i n
    if s.hasPlace i || n.state == .stranded then s else s.strand i

/-- A notice that has let a port go is walked when it is left with no offer and no reference (R120, R81, R91). -/
def State.walkIfBare (s : State) (i : Src) : State := if s.hasPlace i then s else s.walk i

/-- A reference leaves p's queue; if the queue then holds fewer than its limit, a pass is triggered (R77). -/
def State.removeRef (s : State) (i : Src) (p : Port) : State :=
  if (s.queue p).contains i then
    let s := s.setQueue p ((s.queue p).filter (fun j => j != i))
    if (s.queue p).length < s.backlogLimit p then s.triggerPass else s
  else s

/-- Every reference to a notice leaves (R56, R103). -/
def State.removeRefs (s : State) (i : Src) : State := Port.all.foldl (fun t p => t.removeRef i p) s

/-- Puts every queue in the order of the rank order in force (R78). -/
def State.reorderQueues (s : State) : State :=
  { s with delivery := { s.delivery with
      queues := PerPort.build (fun p => sortByKey s.queueKey (s.queue p)) } }

/-! ### The end of a notice (R56, R65, R66) -/

/-- The withdrawals that an end with a reason queues: to each port of the offer set, and to the claimant. -/
def State.withdrawAll (s : State) (i : Src) (n : Notice) (reason : Reason) : State :=
  Port.all.foldl (fun t p =>
    if n.offers.has p || n.state == .claimed p then t.withdraw p ⟨i, n.mark, reason⟩ else t) s

/-- The references of a notice leave, its record goes with its offers and timers, and it leaves the stranded list (R56,
R70). -/
def State.eraseNotice (s : State) (i : Src) : State :=
  ((s.removeRefs i).setNotice i none).setStranded (s.stranded.filter (fun j => j != i))

/-- A notice that has ended leaves the pass list, and a pass left with nothing ends (log 13). -/
def State.prunePass (s : State) (i : Src) : State :=
  if s.delivery.passList.contains i then
    (s.setPass (s.delivery.passList.filter (fun j => j != i)) s.delivery.passPending).endPass
  else s

/-- A notice ends: its withdrawals are queued, its references leave, and its record goes (R56, R70). -/
def State.endNotice (s : State) (i : Src) (reason : Option Reason) : State :=
  match s.notice i, reason with
  | none, _ => s
  | some n, some r => ((s.withdrawAll i n r).eraseNotice i).prunePass i
  | some _, none => (s.eraseNotice i).prunePass i

/-! ### Opening and report arrival (R10 to R17) -/

/-- A notice opens for a source with the given conditions and is walked (R13). -/
def State.openNotice (s : State) (i : Src) (conds : CodeSet) : State :=
  let r := s.src i
  let mark := r.openings + 1
  let n : Notice :=
    { mark := mark, cls := (s.cfg i).cls, mode := (s.cfg i).mode, conds := conds, state := .waiting,
      offers := PortSet.empty, tried := PortSet.empty, shown := false, takeover := false,
      order := s.notices.nextOrder, offerTimers := PerPort.all none, serviceTimer := none }
  let s := s.setSrc i { r with state := .opened, openings := mark }
  let s := s.setNotice i (some n)
  let s := { s with notices := { s.notices with nextOrder := s.notices.nextOrder + 1 } }
  s.walk i

/-- Whether a notice is mergeable: STRANDED, or WAITING and not yet shown (R12). -/
def Notice.mergeable (n : Notice) : Bool :=
  match n.state with
  | .stranded => true
  | .waiting => !n.shown
  | .claimed _ => false

def State.addArrears (s : State) (i : Src) (codes : CodeSet) : State :=
  s.setSrc i { s.src i with arrears := (s.src i).arrears ||| codes }

/-- New conditions are applied by the state of the source (R11). -/
def State.applyConditions (s : State) (i : Src) (new : CodeSet) : State :=
  match (s.src i).state with
  | .disabled => s
  | .quiet => if new = 0 then s else s.openNotice i new
  | .opened =>
    match s.notice i with
    | none => s
    | some n =>
      if n.mergeable then s.setNotice i (some { n with conds := n.conds ||| new })
      else s.addArrears i (CodeSet.minus new n.conds)
  | .closing => s.addArrears i new

/-- The first part of report arrival: reported set, reach and failure run (R10). -/
def State.noteReport (s : State) (i : Src) (report : CodeSet) : State :=
  s.setSrc i { s.src i with reported := report, reach := .reachable, failures := 0 }

/-- Code 15 when it is held, else nothing. -/
def heldSet (held : Bool) : CodeSet := if held then code15Set else 0

/-- A report arrives for a source (R10, R11). -/
def State.reportArrival (s : State) (i : Src) (report : CodeSet) : State :=
  if (s.src i).state = .disabled then s
  else
    let s := s.noteReport i report
    s.applyConditions i ((report &&& (s.cfg i).mask) ||| heldSet (s.src i).code15)

/-- A failed exchange with a source; the third in a row makes it UNREACHABLE (R16, R17). -/
def State.failedExchange (s : State) (i : Src) : State :=
  let r := s.src i
  if r.state = .disabled then s
  else if r.failures = 2 then
    let t := State.latchRisen s (s.setSrc i { r with failures := 3, reach := .unreachable, code15 := true })
    t.applyConditions i code15Set
  else if r.failures < 3 then s.setSrc i { r with failures := r.failures + 1 }
  else s

/-- The outcome of an exchange that was in flight when CLEAR_ALL was taken (R19): a good reply sets reach and failure
run alone, a failure adds 1 to the run, and a DISABLED source keeps every field. -/
def State.outcomeAfterClearAll (s : State) (i : Src) (good : Bool) : State :=
  let r := s.src i
  if r.state = .disabled then s
  else if good then s.setSrc i { r with reach := .reachable, failures := 0 }
  else if r.failures < 3 then s.setSrc i { r with failures := r.failures + 1 }
  else s

/-! ### CLOSE and clear completion (R58 to R63) -/

/-- Clear completion of a CLOSING source with a report (R60). -/
def State.clearCompletion (s : State) (i : Src) (report : CodeSet) : State :=
  let r := s.src i
  let new := (report &&& (s.cfg i).mask) ||| r.arrears ||| heldSet r.code15
  let s := s.setSrc i { r with arrears := 0, state := .quiet }
  if new = 0 then s else s.openNotice i new

/-- The latch of a line as a condition set. -/
def latchSet (latch : Bool) : CodeSet := if latch then code0Set else 0

/-- The clear of a source that has just entered CLOSING (R59): a field source's clear joins the clear list (R34), a
direct line's completes at once with the new latch (R9, R63). -/
def State.beginClear (s : State) (i : Src) (codes : CodeSet) : State :=
  match i.line with
  | none =>
    s.setBus { s.bus with clearList := s.bus.clearList ++ [⟨i, CodeSet.less15 codes, 0⟩] }
  | some k =>
    let latch := (s.line k).filtered == .active
    let s := s.setLine k { s.line k with latch := latch }
    (s.noteReport i (latchSet latch)).clearCompletion i (latchSet latch)

/-- The end of a notice by CLOSE or auto-close with an effective clear set (R58, R61). -/
def State.closeNotice (s : State) (i : Src) (n : Notice) (effective : CodeSet) : State :=
  let s := s.endNotice i none
  let s := s.addArrears i (CodeSet.minus n.conds effective)
  let r := s.src i
  let s :=
    if CodeSet.has15 effective then
      match r.reach with
      | .reachable => s.setSrc i { r with code15 := false }
      | .unreachable => s.setSrc i { r with arrears := r.arrears ||| code15Set }
    else s
  let s := s.setSrc i { s.src i with state := .closing }
  s.beginClear i effective

/-! ### Direct lines (R7, R8) -/

/-- A line query: the latch takes an ACTIVE level, and a latch that holds {0} reports it (R8). -/
def State.lineQuery (s : State) (k : Fin 8) : State :=
  let i := Src.ofLine k
  if (s.src i).state = .disabled then s
  else
    let l := s.line k
    let s := s.setLine k { l with latch := l.latch || l.filtered == .active }
    if (s.line k).latch then s.reportArrival i code0Set else s

/-! ### The field bus (R20, R32, R35, R39, R41, R43) -/

/-- An opening edge: the transaction takes the field rate and reply window in force (R32). -/
def State.openTransaction (s : State) (w : BusWork) : State :=
  s.setBus { s.bus with state := .inFlight ⟨w, s.config.tables.device.rate, s.config.tables.device.window, false⟩ }

/-- The first enabled field source at or above a position, 49 when none remains (R41). -/
def State.scanPosition (s : State) (pos : Nat) : Nat :=
  match Src.all.find? (fun i => decide (pos ≤ i.num) && decide (i.num ≤ 48) && (s.cfg i).enabled) with
  | some i => i.num
  | none => 49

/-- In SCANNING the cursor first moves over disabled sources; when none remains the scan ends and the stage becomes
RUNNING (R41, R187). -/
def State.advanceScan (s : State) : State :=
  if s.stage = .scanning then
    let pos := s.scanPosition s.bus.cursor
    let s := s.setBus { s.bus with cursor := pos }
    if pos = 49 then { s with stage := .running } else s
  else s

/-- A choice of the arbiter in SCANNING or RUNNING with the bus IDLE (R43). -/
def State.choose (s : State) : State :=
  let b := s.bus
  let bidWanted := b.fatLow && !b.suspended
  let scan : Option Src := if s.stage = .scanning then Src.ofNum b.cursor else none
  let workWaits := !b.clearList.isEmpty || !b.pollQueue.isEmpty || scan.isSome
  if bidWanted && (b.prev != .bid || !workWaits) then s.openTransaction .bid
  else
    match b.clearList with
    | c :: rest => (s.setBus { b with clearList := rest }).openTransaction (.clear c false)
    | [] =>
      match b.pollQueue with
      | e :: rest => (s.setBus { b with pollQueue := rest }).openTransaction (.poll e)
      | [] =>
        match scan with
        | some i => s.openTransaction (.scan i)
        | none => s

/-- The arbiter chooses when the bus is IDLE, outside BOOTING (R42). -/
def State.arbiter (s : State) : State :=
  if s.bus.state = .idle ∧ s.stage ≠ .booting then s.advanceScan.choose else s

/-- FAT is sampled (R20). -/
def State.sampleFat (s : State) (fatLow : Bool) : State := s.setBus { s.bus with fatLow := fatLow }

/-- A transaction ends: its acknowledge slot has been given, its kind is the previous kind, and the gap begins (R21,
R31, R42). -/
def State.endTransaction (s : State) (t : InFlight) (kind : PrevKind) (ack : AckSlot) : State :=
  s.setBus { s.bus with state := .gap t.rate, prev := kind, ack := ack }

/-- A failing bid round adds 1 to the bid-failure run, and the run reaching 4 suspends bidding (R27). -/
def State.bidFailed (s : State) : State :=
  let run := if s.bus.bidRun < Config.suspendAt then s.bus.bidRun + 1 else s.bus.bidRun
  State.latchRisen s
    (s.setBus { s.bus with bidRun := run, suspended := s.bus.suspended || decide (Config.suspendAt ≤ run) })

/-- The outcome of an exchange with one source goes to the source unit (R31), or is taken as R19 says after CLEAR_ALL. -/
def State.handOutcome (s : State) (t : InFlight) (i : Src) (o : BusOutcome) : State :=
  match o with
  | .replied r => if t.afterClearAll then s.outcomeAfterClearAll i true else s.reportArrival i r
  | .badCheck | .noReply => if t.afterClearAll then s.outcomeAfterClearAll i false else s.failedExchange i

/-- A baseline scan begins: the stage is SCANNING, the enabled direct lines are queried in turn, the cursor is set, and
the arbiter chooses (R186). -/
def State.beginScan (s : State) : State :=
  let s := { s with stage := .scanning }
  let s := (List.finRange 8).foldl (fun t k => t.lineQuery k) s
  let s := s.setBus { s.bus with cursor := 1, attempts := 0 }
  s.arbiter

/-- Whether a port has a poll outstanding (R38). -/
def State.pollOutstanding (s : State) (p : Port) : Bool :=
  s.bus.pollQueue.any (fun e => e.requesters.has p) ||
    match s.bus.state with
    | .inFlight ⟨.poll e, _, _, _⟩ => e.requesters.has p
    | _ => false

/-- A port leaves every requester set, and queued entries left with none are removed (R40). -/
def State.dropPolls (s : State) (p : Port) : State :=
  let strip (e : PollEntry) : PollEntry := { e with requesters := e.requesters.erase p }
  let queue := (s.bus.pollQueue.map strip).filter (fun e => !e.requesters.isEmpty)
  let state := match s.bus.state with
    | .inFlight t =>
      match t.work with
      | .poll e => .inFlight { t with work := .poll (strip e) }
      | _ => s.bus.state
    | st => st
  s.setBus { s.bus with pollQueue := queue, state := state }

/-! ### The detach effects (R127, R91, R153) -/

/-- p's offer of a notice is taken away as at an offer expiry: p leaves the offer set with its timer and joins the tried
set (R119, R127). -/
def State.dropOffer (s : State) (p : Port) (i : Src) : State :=
  s.modNotice i (fun n =>
    { n with offers := n.offers.erase p, offerTimers := n.offerTimers.set p none, tried := n.tried.insert p })

/-- p's claim of a notice is revoked: the claimant becomes absent, p joins the tried set, the takeover flag is set and
the service timer goes (R124, R127). -/
def State.revokeClaim (s : State) (p : Port) (i : Src) : State :=
  s.modNotice i (fun n =>
    { n with state := .waiting, tried := n.tried.insert p, takeover := true, serviceTimer := none })

/-- p joins the tried set of a notice (R51). -/
def State.addTried (s : State) (p : Port) (i : Src) : State :=
  s.modNotice i (fun n => { n with tried := n.tried.insert p })

/-- p's offers, oldest first, then p's claims, oldest first, are taken away (R127, R153 step 1). -/
def State.revokeAll (s : State) (p : Port) : State :=
  let offers := sortByKey s.ageKey (s.noticesWith (fun n => n.offers.has p))
  let claims := sortByKey s.ageKey (s.noticesWith (fun n => n.state == .claimed p))
  let s := offers.foldl (fun t i => (t.dropOffer p i).walkIfBare i) s
  claims.foldl (fun t i => (t.revokeClaim p i).walkIfBare i) s

/-- p's queue is emptied from the head, each notice handled as it is removed (R91, R153 step 2). -/
def State.emptyQueue (s : State) (p : Port) : State :=
  (s.queue p).foldl (fun t i => ((t.setQueue p (t.queue p).tail).addTried p i).walkIfBare i) s

/-- A STORE that p requested loses its recipient, and the configuration right is released if p holds it (R153 step 4). -/
def State.dropRight (s : State) (p : Port) : State :=
  { s with config := { s.config with
      right := if s.config.right = some p then none else s.config.right
      store := match s.config.store with
        | .writing t (some q) => .writing t (if q = p then none else some q)
        | st => st } }

/-- A pending link rate no longer waits for responses that have been emptied (R131). -/
def releaseRate (r : Option PendingRate) : Option PendingRate := r.map (fun x => { x with after := 0 })

/-- The port engine's lists are emptied and the port takes a state without a window (R153 steps 5 and 6). -/
def State.emptyLists (s : State) (p : Port) (st : PortState) : State :=
  let e := s.eng p
  s.setEng p { e with requests := [], responses := [], withdrawals := [], state := st,
                      ratePending := releaseRate e.ratePending }

/-- The detach effects at port p, which becomes `st` (R153). An already detached port only has its lists emptied. -/
def State.detachEffects (s : State) (p : Port) (st : PortState) : State :=
  if (s.eng p).state.isOn then
    (((((s.revokeAll p).emptyQueue p).dropPolls p).dropRight p).emptyLists p st)
  else s.emptyLists p st

/-- The pass that the removals from a detached port's queue trigger is taken when the detach is complete (R91; log 14). -/
def State.triggerIf (s : State) (c : Bool) : State := if c then s.triggerPass else s

/-- The link of a port is cut: a frame in transmission ends after the character in progress and has not been sent
(R140, R143, R170); the receiver enters HUNT and LOST is clear. -/
def State.cutLink (s : State) (p : Port) : State :=
  let e := s.eng p
  let s := s.setEng p { e with rx := .hunt, lost := false, tx := match e.tx with
    | .sending _ => .cutOff
    | tx => tx }
  s.setSignalled p 0

/-! ### The transmitters (R94 to R97, R131, R138, R143, R144) -/

/-- The conditions for taking the head (R94), but for the transmitter being between frames. -/
def State.canTakeHead (s : State) (p : Port) : Bool :=
  let e := s.eng p
  s.stage == .running && e.responses.isEmpty && e.withdrawals.isEmpty && !(s.queue p).isEmpty &&
    match e.state with
    | .attached w => decide (s.offerCount p < w)
    | _ => false

/-- A frame begins transmission: its flags are those of this moment, and the signalled set is set (R144, R169, R170). -/
def State.beginFrame (s : State) (p : Port) (lost : Bool) (body : TxBody) : State :=
  let f : TxFrame := { e := s.eFlag p, w := s.wFlag p, lost := lost, body := body }
  (s.setEng p { s.eng p with tx := .sending f }).setSignalled p (s.signalSet p)

/-- What a NOTICE frame for a notice carries (R72). -/
def noticeInfo (i : Src) (n : Notice) (tag : Byte) : NoticeInfo :=
  { src := i, mark := n.mark, cls := n.cls, conds := n.conds, tag := tag, shared := n.mode == .shared,
    takeover := n.takeover }

/-- Port p takes the head of its queue (R96). -/
def State.takeHead (s : State) (p : Port) : State :=
  match s.queue p with
  | [] => s
  | i :: _ =>
    match s.notice i with
    | none => s
    | some n =>
      let s := s.removeRef i p
      let s := s.setNotice i (some { n with offers := n.offers.insert p, shown := true })
      s.beginFrame p false (.notice (noticeInfo i n (s.cfg i).tag))

/-- The choice of the next frame by a transmitter that is between frames (R143). -/
def State.chooseFrame (s : State) (p : Port) : State :=
  let e := s.eng p
  if e.tx = .idle ∧ e.state ≠ .disabled then
    match e.responses with
    | r :: rest => (s.setEng p { e with responses := rest, lost := false }).beginFrame p e.lost (.response r)
    | [] =>
      match e.withdrawals with
      | w :: rest => (s.setEng p { e with withdrawals := rest }).beginFrame p false (.withdrawn w)
      | [] => if s.canTakeHead p then s.takeHead p else s
  else s

/-- A pending link rate takes effect between frames: the receiver drops a partial frame and enters HUNT (R131). -/
def State.applyRate (s : State) (p : Port) : State :=
  let e := s.eng p
  match e.ratePending with
  | some ⟨r, 0⟩ => if e.tx = .idle then s.setEng p { e with rate := r, ratePending := none, rx := .hunt } else s
  | _ => s

/-- At the end of an event each transmitter that is between frames applies a due link rate and chooses (log 4). -/
def State.settlePort (s : State) (p : Port) : State := (s.applyRate p).chooseFrame p

def State.settle (s : State) : State := ((s.settlePort .A).settlePort .B).settlePort .C

/-! ### Execution of requests (R142, R155, R156) -/

/-- The decoding checks 2 to 5 of R156 for a frame of kind k at port p: the refusing status, if any. -/
def State.decodeCheck (s : State) (p : Port) (k : ReqKind) (f : Frame) : Option Status :=
  if !lengthOk k f then some .badArg
  else if s.stage != .running && !k.inScanning then some .notReady
  else if !(s.eng p).state.isOn && !k.atDetached then some .notAttached
  else if !argsOk k f then some .badArg
  else none

/-- Whether the engine of p executes the head of its request queue (R155). -/
def State.mayExecute (s : State) (p : Port) : Bool :=
  s.stage != .booting && (s.eng p).state != .disabled &&
    decide ((s.eng p).responses.length < Config.responseLevel)

/-- Executes the head frame of p's request queue when the command names it: the frame leaves the queue, `run` decides
it, and the transmitters choose. A command that does not name the head frame changes nothing (logs 1 and 2). -/
def State.execHead (s : State) (p : Port) (named : Frame → Bool) (run : Frame → State → State) : State :=
  if s.mayExecute p then
    match (s.eng p).requests with
    | [] => s
    | f :: rest =>
      if named f then (run f (s.setEng p { s.eng p with requests := rest })).settle else s
  else s

/-- Executes a head frame of kind k: the decoding checks refuse it or `run` decides it (R156). -/
def State.execKind (s : State) (p : Port) (k : ReqKind) (named : Frame → Bool) (run : Frame → State → State) : State :=
  s.execHead p (fun f => f.head == k.head && named f) (fun f t =>
    match t.decodeCheck p k f with
    | some st => t.respond p ⟨f.head, st, []⟩
    | none => run f t)

/-- A response of the kind of a frame. -/
def Frame.answer (f : Frame) (st : Status) (data : List Byte) : Response := ⟨f.head, st, data⟩

end Sys2Proof.Machine
end

