-- ==== Sys2Proof/Machine/Bus.lean ====
section
/-! DEFINITION. The events of the field bus (chapter 2). -/

namespace Sys2Proof.Machine

/-- FAT_LOW: the wire goes low, and the arbiter chooses if the bus is IDLE (R42); in BOOTING FAT is neither sampled nor
acted on (R20). -/
def execFatLow (s : State) : Host.Outcome State Fault Refusal :=
  .next (if s.stage = .booting then s else (s.sampleFat true).arbiter.settle)

/-- GAP_END: the bus becomes IDLE, FAT is sampled and the arbiter chooses; the scan may end here (R42, R43, R187). -/
def execGapEnd (fatLow : Bool) (s : State) : Host.Outcome State Fault Refusal :=
  .next (match s.bus.state with
    | .gap _ => ((s.setBus { s.bus with state := .idle, fatLow := fatLow }).arbiter).settle
    | _ => s)

/-- What the outcome of a bid round does outside the bus state (R26, R27, R19). -/
def State.bidEffect (s : State) (t : InFlight) : BidOutcome → State
  | .won i r =>
    let s := s.handOutcome t i (.replied r)
    s.setBus { s.bus with bidRun := 0 }
  | .garbled i => (s.handOutcome t i .badCheck).bidFailed
  | .stray => s.bidFailed
  | .empty => s.bidFailed

/-- BID_ROUND_END (R24 to R27). -/
def execBidRoundEnd (address : BitVec 6) (report : BitVec 16) (check : BitVec 8) (s : State) :
    Host.Outcome State Fault Refusal :=
  .next (match s.bus.state with
    | .inFlight t =>
      match t.work with
      | .bid =>
        let o := bidOutcome address report check
        (((s.endTransaction t .bid o.ack).bidEffect t o)).settle
      | _ => s
    | _ => s)

/-- The response to a POLL (R39). -/
def State.pollAnswer (s : State) (i : Src) : BusOutcome → Response
  | .replied r =>
    ⟨ReqKind.poll.head, .ok, [byteOf i.num] ++ le16 r ++ [byteOf (s.src i).reach.code]⟩
  | .badCheck | .noReply => ⟨ReqKind.poll.head, .noReply, [byteOf i.num]⟩

/-- POLL_END: the outcome goes to the source unit, then each requester is answered (R39). -/
def execPollEnd (reply : Option FieldReply) (s : State) : Host.Outcome State Fault Refusal :=
  .next (match s.bus.state with
    | .inFlight t =>
      match t.work with
      | .poll e =>
        let o := busOutcome t.window reply
        let s := (s.endTransaction t .work o.ack).handOutcome t e.src o
        (e.requesters.toList.foldl (fun u p => u.respond p (s.pollAnswer e.src o)) s).settle
      | _ => s
    | _ => s)

/-- A failed clear is appended again, or given up at its third attempt with an empty report (R37, R62). -/
def State.clearFailed (s : State) (e : ClearEntry) : State :=
  let s := s.failedExchange e.src
  if e.attempts < 2 then
    s.setBus { s.bus with clearList := s.bus.clearList ++ [{ e with attempts := e.attempts + 1 }] }
  else if (s.src e.src).state = .closing then s.clearCompletion e.src 0 else s

/-- The effect of a clear's end that is neither discarded nor overtaken by CLEAR_ALL (R36, R37, R62). -/
def State.clearEffect (s : State) (e : ClearEntry) : BusOutcome → State
  | .replied r =>
    if (s.src e.src).state = .closing then (s.noteReport e.src r).clearCompletion e.src r else s
  | .badCheck | .noReply => s.clearFailed e

/-- CLEAR_END (R35 to R37, R62); after CLEAR_ALL the clear is neither retried nor completed (R45, R19), and a discarded
clear is handed to nobody (R35). Of a clear that is discarded and then overtaken by CLEAR_ALL, its source being enabled
again in between, R35 hands the outcome to nobody and R45 hands it on as R19 says: that R35 prevails is the model's
choice (log 32). -/
def execClearEnd (reply : Option FieldReply) (s : State) : Host.Outcome State Fault Refusal :=
  .next (match s.bus.state with
    | .inFlight t =>
      match t.work with
      | .clear e discarded =>
        let o := busOutcome t.window reply
        let s := s.endTransaction t .work o.ack
        (if discarded then s
        else if t.afterClearAll then s.handOutcome t e.src o
        else s.clearEffect e o).settle
      | _ => s
    | _ => s)

/-- The scan cursor after a scan step (R41). -/
def State.moveCursor (s : State) (o : BusOutcome) : State :=
  match o with
  | .replied _ => s.setBus { s.bus with cursor := s.bus.cursor + 1, attempts := 0 }
  | .badCheck | .noReply =>
    if s.bus.attempts < 2 then s.setBus { s.bus with attempts := s.bus.attempts + 1 }
    else s.setBus { s.bus with cursor := s.bus.cursor + 1, attempts := 0 }

/-- SCAN_STEP_END: the outcome goes to the source unit and the cursor moves (R41). -/
def execScanStepEnd (reply : Option FieldReply) (s : State) : Host.Outcome State Fault Refusal :=
  .next (match s.bus.state with
    | .inFlight t =>
      match t.work with
      | .scan i =>
        let o := busOutcome t.window reply
        ((((s.endTransaction t .work o.ack).handOutcome t i o).moveCursor o)).settle
      | _ => s
    | _ => s)

end Sys2Proof.Machine
end

