-- ==== Sys2Proof/Machine/Claims.lean ====
section
/-! DEFINITION. CLAIM, RELEASE and CLOSE (chapters 3 and 5). -/

namespace Sys2Proof.Machine

/-- The source that a request names in payload byte 0; the decoding checks have put it in 1..56 (R157). -/
def Frame.src (f : Frame) : Src := (Src.ofNum (f.byte 0).toNat).getD 0

/-- The source and mark as the request named them (R106). -/
def Frame.pair (f : Frame) : List Byte := [f.byte 0] ++ le16 f.mark

/-- The notice that a request names by source and mark (R55). -/
def State.named (s : State) (f : Frame) : Option Notice :=
  match s.notice f.src with
  | some n => if n.mark = f.mark then some n else none
  | none => none

/-- Steps 1 to 4 of R103: the notice becomes CLAIMED by p, every offer ends, the other ports of the offer set are told
TAKEN, and every reference leaves. -/
def State.makeClaim (s : State) (p : Port) (i : Src) (n : Notice) : State :=
  let s := s.setNotice i
    (some { n with state := .claimed p, offers := PortSet.empty, offerTimers := PerPort.all none })
  let s := Port.all.foldl (fun t q =>
    if q ≠ p ∧ n.offers.has q then t.withdraw q ⟨i, n.mark, .taken⟩ else t) s
  s.removeRefs i

/-- The service timer that a claim under a limit starts, none for limit 0 (R122). -/
def serviceTimerOf (limit : BitVec 16) : Option Nat := if limit = 0 then none else some limit.toNat

/-- A CLAIM that finds the notice offered to p, by the close mode of the class (R103, R61). -/
def State.claimOffered (s : State) (p : Port) (f : Frame) (n : Notice) : State :=
  let i := f.src
  let c := s.clsCfg n.cls
  let t := s.makeClaim p i n
  match c.closeMode with
  | .manual =>
    let t := t.modNotice i (fun m => { m with serviceTimer := serviceTimerOf c.serviceLimit })
    t.respond p (f.answer .ok (f.pair ++ le16 n.conds))
  | .auto =>
    let t := t.closeNotice i n n.conds
    (t.respond p (f.answer .okAutoclosed (f.pair ++ le16 n.conds))).arbiter

/-- CLAIM decided at the notice table (R101, R104 to R106). -/
def State.decideClaim (s : State) (p : Port) (f : Frame) : State :=
  match s.named f with
  | none => s.respond p (f.answer .tooLate f.pair)
  | some n =>
    match n.state with
    | .claimed q =>
      if q = p then s.respond p (f.answer .ok (f.pair ++ le16 n.conds))
      else s.respond p (f.answer .taken (f.pair ++ [byteOf q.index]))
    | .waiting => if n.offers.has p then s.claimOffered p f n else s.respond p (f.answer .notOffered f.pair)
    | .stranded => s.respond p (f.answer .notOffered f.pair)

/-- CLAIM (R101). -/
def execClaim (p : Port) (s : State) : Host.Outcome State Fault Refusal :=
  .next (s.execKind p .claim (fun _ => true) (fun f t => t.decideClaim p f))

/-- RELEASE decided at the notice table (R109, R110). -/
def State.decideRelease (s : State) (p : Port) (f : Frame) : State :=
  match s.named f with
  | none => s.respond p (f.answer .tooLate f.pair)
  | some n =>
    if n.state = .claimed p then
      let t := s.setNotice f.src
        (some { n with state := .waiting, tried := n.tried.insert p, serviceTimer := none })
      (t.respond p (f.answer .ok f.pair)).walk f.src
    else s.respond p (f.answer .notOwner f.pair)

/-- RELEASE (R110). -/
def execRelease (p : Port) (s : State) : Host.Outcome State Fault Refusal :=
  .next (s.execKind p .release (fun _ => true) (fun f t => t.decideRelease p f))

/-- CLOSE decided at the notice table (R57, R58). -/
def State.decideClose (s : State) (p : Port) (f : Frame) : State :=
  match s.named f with
  | none => s.respond p (f.answer .tooLate f.pair)
  | some n =>
    if n.state = .claimed p then
      ((s.closeNotice f.src n (f.clearSet &&& n.conds)).respond p (f.answer .ok f.pair)).arbiter
    else s.respond p (f.answer .notOwner f.pair)

/-- CLOSE (R57). -/
def execClose (p : Port) (s : State) : Host.Outcome State Fault Refusal :=
  .next (s.execKind p .close (fun _ => true) (fun f t => t.decideClose p f))

end Sys2Proof.Machine
end

