-- ==== Sys2Proof/Machine/Configuration.lean ====
section
/-! DEFINITION. READ_ENTRY, the WRITE_ENTRY rows, the configuration right and the store (chapter 10). -/

namespace Sys2Proof.Machine

/-! ### Reading (R173) -/

def NoticeState.code : NoticeState → Nat
  | .waiting => 1 | .claimed _ => 2 | .stranded => 3

def NoticeState.claimant : NoticeState → Option Port
  | .claimed p => some p
  | .waiting => none
  | .stranded => none

/-- The content of a SOURCE_STATE entry: runtime fields and notice summary (R2, R71, R146). -/
def State.sourceStateContent (s : State) (i : Src) : List Byte :=
  let r := s.src i
  let lineBits := match i.line with
    | some k => 16 * boolNat ((s.line k).filtered == .active) + 32 * boolNat (s.line k).latch
    | none => 0
  let first := r.state.code + 4 * r.reach.code + 8 * boolNat r.code15 + lineBits
  let middle := le16 r.reported ++ le16 r.arrears ++ le16 r.openings
  match s.notice i with
  | none => [byteOf first] ++ middle ++ [byteOf (r.failures + 32 * 3)] ++ [0, 0, 0, 0]
  | some n =>
    let offers := 4 * boolNat (n.offers.has .A) + 8 * boolNat (n.offers.has .B) + 16 * boolNat (n.offers.has .C)
    [byteOf (first + 64 * n.state.code)] ++ middle ++
      [byteOf (r.failures + offers + 32 * portCode n.state.claimant)] ++ le16 n.mark ++ le16 n.conds

/-- The content of a table entry as it stands (R146, R173). -/
def State.entryContent (s : State) (table index : Nat) : List Byte :=
  match table with
  | 0 => match Src.ofNum index with
    | some i => encodeSource (s.cfg i)
    | none => []
  | 1 => match Src.ofNum index with
    | some i => s.sourceStateContent i
    | none => []
  | 2 => encodeClass (s.clsCfg (Fin.ofNat 8 index))
  | 3 => encodeOrder s.config.tables.order
  | 4 => match Port.ofCode index with
    | some p => encodePort (s.portCfg p)
    | none => []
  | 5 => encodeDevice s.config.tables.device
  | _ => []

/-- READ_ENTRY (R173). -/
def execReadEntry (p : Port) (s : State) : Host.Outcome State Fault Refusal :=
  .next (s.execKind p .readEntry (fun _ => true) (fun f t =>
    t.respond p (f.answer .ok ([f.byte 0, f.byte 1] ++ t.entryContent (f.byte 0).toNat (f.byte 1).toNat))))

/-! ### SOURCE writes (R4, R65, R176) -/

/-- A clear of the source in flight is marked discarded (R35). -/
def BusState.discardClear (st : BusState) (i : Src) : BusState :=
  match st with
  | .inFlight t =>
    match t.work with
    | .clear e d => .inFlight { t with work := .clear e (d || e.src == i) }
    | _ => st
  | _ => st

/-- Enabled goes from yes to no: the notice ends with DISABLED, the clear goes, and the runtime fields are reset; the
reported set and the opening count are kept (R4, R65, R34, R35). -/
def State.disableSource (s : State) (i : Src) : State :=
  let s := s.endNotice i (some .disabled)
  let s := s.setBus { s.bus with
    clearList := s.bus.clearList.filter (fun e => e.src != i)
    state := s.bus.state.discardClear i }
  let s := s.setSrc i { s.src i with
    state := .disabled, arrears := 0, code15 := false, failures := 0, reach := .reachable }
  match i.line with
  | some k => s.setLine k { s.line k with latch := false }
  | none => s

/-- Enabled goes from no to yes: the source is QUIET, and a direct line whose filtered level is ACTIVE reports {0}
(R4). -/
def State.enableSource (s : State) (i : Src) : State :=
  let s := s.setSrc i { s.src i with
    state := .quiet, arrears := 0, code15 := false, failures := 0, reach := .reachable }
  match i.line with
  | some k =>
    if (s.line k).filtered = .active then
      (s.setLine k { s.line k with latch := true }).reportArrival i code0Set
    else s
  | none => s

/-- An accepted SOURCE write, its effects in the order of R176. -/
def State.writeSource (s : State) (i : Src) (new : SourceCfg) : State :=
  let old := s.cfg i
  let s := if old.enabled && !new.enabled then s.disableSource i else s
  let s := s.setCfg i new
  let s := if !old.enabled && new.enabled then s.enableSource i else s
  s.triggerIf (old.route != new.route)

/-! ### PORT writes (R80, R81, R131, R149, R176) -/

/-- Enabled goes from no to yes: the port is DETACHED with its receiver in HUNT, its lists empty and LOST clear (R149). -/
def State.enablePort (s : State) (q : Port) : State :=
  s.setEng q { s.eng q with
    state := .detached, rx := .hunt, requests := [], responses := [], withdrawals := [], lost := false }

/-- Enabled goes from yes to no: the detach effects, and the link is cut (R149, R153). -/
def State.disablePort (s : State) (q : Port) : State := (s.detachEffects q .disabled).cutLink q

/-- A backlog limit is put in force and the references beyond it are evicted, their notices handled one at a time
(R80, R81). -/
def State.setBacklog (s : State) (q : Port) (limit : Byte) : State :=
  let queue := s.queue q
  let t := (s.setPortCfg q { s.portCfg q with backlog := limit }).setQueue q (queue.take limit.toNat)
  (queue.drop limit.toNat).foldl (fun u i => (u.addTried q i).walkIfBare i) (State.latchRisen s t)

/-- The number of RESPONSE frames to be sent until the response to a write now taken has been sent (R131): none when the
write came from another port or its port has been disabled. -/
def PortEngine.owedAfterWrite (e : PortEngine) (own : Bool) : Nat :=
  if own && e.state != .disabled then
    (match e.tx with
      | .sending ⟨_, _, _, .response _⟩ => 1
      | _ => 0) + e.responses.length + 1
  else 0

/-- A change of link rate becomes pending, or replaces the pending one without bringing it forward (R131). -/
def State.pendRate (s : State) (q : Port) (rate : LinkRate) (own : Bool) : State :=
  let e := s.eng q
  let owed := e.owedAfterWrite own
  let after := match e.ratePending with
    | some x => max x.after owed
    | none => owed
  s.setEng q { e with ratePending := some ⟨rate, after⟩ }

/-- An accepted PORT write from port p to the entry of port q, its effects in the order of R176, with one trigger for the
whole write (R89; log 14). -/
def State.writePort (s : State) (p q : Port) (new : PortCfg) : State :=
  let old := s.portCfg q
  let s := if old.enabled && !new.enabled then s.disablePort q
    else if !old.enabled && new.enabled then s.enablePort q else s
  let s := if old.backlog = new.backlog then s else s.setBacklog q new.backlog
  let s := s.setPortCfg q new
  let s := if old.rate = new.rate then s else s.pendRate q new.rate (decide (p = q))
  s.triggerIf (old.enabled != new.enabled || old.classFilter != new.classFilter || old.backlog != new.backlog)

/-! ### CLASS, ORDER and DEVICE writes (R73, R78, R32) -/

/-- An accepted ORDER write: the rank order is in force and the queues are reordered (R78). -/
def State.writeRank (s : State) (order : List (Fin 8)) : State :=
  if s.config.tables.order = order then s
  else
    let t : State := { s with config := { s.config with tables := { s.config.tables with order := order } } }
    t.reorderQueues

def State.writeDevice (s : State) (d : DeviceCfg) : State :=
  { s with config := { s.config with tables := { s.config.tables with device := d } } }

/-! ### WRITE_ENTRY (R174, R175) -/

/-- The effects of a write whose values are in range, none where a value is out of range (R175, R176). -/
def State.applyWrite (s : State) (p : Port) (f : Frame) : Option State :=
  let index := (f.byte 1).toNat
  match (f.byte 0).toNat with
  | 0 => (Src.ofNum index).bind (fun i => (decodeSource i f.content).map (s.writeSource i))
  | 2 => (decodeClass f.content).map (s.setClsCfg (Fin.ofNat 8 index))
  | 3 => (decodeOrder f.content).map s.writeRank
  | 4 => (Port.ofCode index).bind (fun q => (decodePort f.content).map (s.writePort p q))
  | 5 => (decodeDevice f.content).map s.writeDevice
  | _ => none

/-- The response to a write is the last thing that it does; a write that has disabled its own port makes none (R149,
R174). -/
def State.respondIfOn (s : State) (p : Port) (r : Response) : State :=
  if (s.eng p).state = .disabled then s else s.respond p r

/-- WRITE_ENTRY decided at the configuration unit (R174). -/
def State.decideWrite (s : State) (p : Port) (f : Frame) : State :=
  let named := [f.byte 0, f.byte 1]
  if s.config.right ≠ some p then s.respond p (f.answer .noRight named)
  else if s.config.store ≠ .idle then s.respond p (f.answer .busy named)
  else
    match s.applyWrite p f with
    | none => s.respond p (f.answer .badArg [])
    | some t => t.respondIfOn p (f.answer .ok named)

/-- Executes a head frame that is a WRITE_ENTRY of the rows named (log 21). -/
def State.execWrite (s : State) (p : Port) (row : Frame → Bool) : State :=
  s.execKind p .writeEntry row (fun f t => t.decideWrite p f)

/-- The frame is a write of a table. -/
def Frame.writes (f : Frame) (table : Nat) : Bool := f.payload.head? == some (byteOf table)

/-- The frame is a write that names no writable table, or none at all: no correct LEN exists for it (R146, R156). -/
def Frame.writesNone (f : Frame) : Bool :=
  match f.payload with
  | [] => true
  | t :: _ => (contentLength t.toNat).isNone

/-- Bit 0 of the first content byte: Enabled in a SOURCE or PORT content (R146). -/
def Frame.saysEnabled (f : Frame) : Bool := (f.byte 2).getLsbD 0

/-- The PORT entry that a PORT write names, as it stands. -/
def State.namedPort (s : State) (f : Frame) : PortCfg :=
  match Port.ofCode (f.byte 1).toNat with
  | some q => s.portCfg q
  | none => defaultPort

/-- SOURCE_DISABLE (R65, R4, R174). -/
def execSourceDisable (p : Port) (s : State) : Host.Outcome State Fault Refusal :=
  .next (s.execWrite p (fun f => f.writes 0 && !f.saysEnabled))

/-- SOURCE_ENABLE (R4, R174). -/
def execSourceEnable (p : Port) (s : State) : Host.Outcome State Fault Refusal :=
  .next (s.execWrite p (fun f => f.writes 0 && f.saysEnabled))

/-- WRITE_SOURCE_ENTRY (R176, R174). -/
def execWriteSourceEntry (p : Port) (s : State) : Host.Outcome State Fault Refusal :=
  .next (s.execWrite p (fun f => f.writes 0 || f.writesNone))

/-- WRITE_CLASS_ENTRY (R73, R174). -/
def execWriteClassEntry (p : Port) (s : State) : Host.Outcome State Fault Refusal :=
  .next (s.execWrite p (fun f => f.writes 2 || f.writesNone))

/-- WRITE_ORDER (R78, R174). -/
def execWriteOrder (p : Port) (s : State) : Host.Outcome State Fault Refusal :=
  .next (s.execWrite p (fun f => f.writes 3 || f.writesNone))

/-- PORT_ENABLE (R149, R174). -/
def execPortEnable (p : Port) (s : State) : Host.Outcome State Fault Refusal :=
  .next (s.execWrite p (fun f => f.writes 4 && f.saysEnabled))

/-- PORT_DISABLE (R149, R174). -/
def execPortDisable (p : Port) (s : State) : Host.Outcome State Fault Refusal :=
  .next (s.execWrite p (fun f => f.writes 4 && !f.saysEnabled))

/-- BACKLOG_LIMIT_RAISE (R80, R174). -/
def execBacklogLimitRaise (p : Port) (s : State) : Host.Outcome State Fault Refusal :=
  .next (s.execWrite p (fun f => f.writes 4 && decide ((s.namedPort f).backlog.toNat < (f.byte 5).toNat)))

/-- BACKLOG_LIMIT_LOWER (R81, R174). -/
def execBacklogLimitLower (p : Port) (s : State) : Host.Outcome State Fault Refusal :=
  .next (s.execWrite p (fun f => f.writes 4 && decide ((f.byte 5).toNat < (s.namedPort f).backlog.toNat)))

/-- LINK_RATE_WRITE (R131, R174). -/
def execLinkRateWrite (p : Port) (s : State) : Host.Outcome State Fault Refusal :=
  .next (s.execWrite p (fun f => f.writes 4 && (LinkRate.ofCode (bits (f.byte 2) 2 2) != (s.namedPort f).rate)))

/-- WRITE_PORT_ENTRY (R176, R174). -/
def execWritePortEntry (p : Port) (s : State) : Host.Outcome State Fault Refusal :=
  .next (s.execWrite p (fun f => f.writes 4 || f.writesNone))

/-- WRITE_DEVICE_ENTRY (R32, R174). -/
def execWriteDeviceEntry (p : Port) (s : State) : Host.Outcome State Fault Refusal :=
  .next (s.execWrite p (fun f => f.writes 5 || f.writesNone))

/-! ### The configuration right (R177) -/

def State.setRight (s : State) (r : Option Port) : State := { s with config := { s.config with right := r } }

/-- TAKE_RIGHT decided at the configuration unit (R177). -/
def State.decideTakeRight (s : State) (p : Port) (f : Frame) : State :=
  match s.config.right with
  | none => (s.setRight (some p)).respond p (f.answer .ok [])
  | some q =>
    if q = p then s.respond p (f.answer .ok []) else s.respond p (f.answer .noRight [byteOf q.index])

/-- TAKE_RIGHT (R177). -/
def execTakeRight (p : Port) (s : State) : Host.Outcome State Fault Refusal :=
  .next (s.execKind p .takeRight (fun _ => true) (fun f t => t.decideTakeRight p f))

/-- GIVE_RIGHT decided at the configuration unit (R177). -/
def State.decideGiveRight (s : State) (p : Port) (f : Frame) : State :=
  if s.config.right = some p then (s.setRight none).respond p (f.answer .ok [])
  else s.respond p (f.answer .notOwner [])

/-- GIVE_RIGHT (R177). -/
def execGiveRight (p : Port) (s : State) : Host.Outcome State Fault Refusal :=
  .next (s.execKind p .giveRight (fun _ => true) (fun f t => t.decideGiveRight p f))

/-! ### The store (R179 to R181) -/

/-- A STORE is accepted: the state is WRITING with the tables as they stand, and the image is marked invalid (R179). That
the image keeps its former content and check until the completion, and where a full reset ends the STORE (R181), is the
model's choice (log 34). -/
def State.acceptStore (s : State) (p : Port) : State :=
  { s with config := { s.config with
      store := .writing s.config.tables (some p), image := { s.config.image with valid := false } } }

/-- STORE decided at the configuration unit (R179); an accepted STORE is answered at its completion. -/
def State.decideStore (s : State) (p : Port) (f : Frame) : State :=
  if s.config.right ≠ some p then s.respond p (f.answer .noRight [])
  else if s.config.store ≠ .idle then s.respond p (f.answer .busy [])
  else s.acceptStore p

/-- STORE (R179). -/
def execStore (p : Port) (s : State) : Host.Outcome State Fault Refusal :=
  .next (s.execKind p .store (fun _ => true) (fun f t => t.decideStore p f))

/-- Whether the image read back is what was written: content and check (R180). -/
def storeVerified (t : Tables) (content : List Byte) (check : BitVec 16) : Bool :=
  content == encodeTables t && check == crc16 (encodeTables t)

/-- The completion of a STORE: the image, the conditions and the response follow the verification (R180). -/
def State.completeStore (s : State) (t : Tables) (dest : Option Port) (content : List Byte) (check : BitVec 16) : State :=
  let good := storeVerified t content check
  let u : State := { s with config := { s.config with
    store := .idle, image := ⟨good, content, check⟩,
    storeBlank := s.config.storeBlank && !good, storeFault := !good } }
  let u := State.latchRisen s u
  match dest with
  | some p => u.respond p ⟨ReqKind.store.head, if good then .ok else .storeFault, []⟩
  | none => u

/-- STORE_COMPLETE (R180). -/
def execStoreComplete (content : List Byte) (check : BitVec 16) (s : State) : Host.Outcome State Fault Refusal :=
  .next (match s.config.store with
    | .idle => s
    | .writing t dest => (s.completeStore t dest content check).settle)

end Sys2Proof.Machine
end

