-- ==== Sys2Proof/Machine/Delivery.lean ====
section
/-! DEFINITION. The walks of a re-placement pass, and SWEEP (chapter 4, section 8.7). -/

namespace Sys2Proof.Machine

/-- The next member of the pass list leaves it and is walked if it is still stranded; the pass ends with its list (R88,
R90). -/
def State.passStep (s : State) : State :=
  match s.delivery.passList with
  | [] => s
  | i :: rest =>
    let s := s.setPass rest s.delivery.passPending
    let s := if s.stranded.contains i then s.walk i else s
    s.endPass

/-- PASS_WALK (R88, R90). -/
def execPassWalk (s : State) : Host.Outcome State Fault Refusal :=
  .next (match s.delivery.passList with
    | [] => s
    | _ :: _ => s.passStep.settle)

/-- SWEEP (R161). -/
def execSweep (p : Port) (s : State) : Host.Outcome State Fault Refusal :=
  .next (s.execKind p .sweep (fun _ => true) (fun f t => t.triggerPass.respond p (f.answer .ok [])))

end Sys2Proof.Machine
end

