-- ==== Sys2Proof/Machine/Link.lean ====
section
/-! DEFINITION. The master links: the receiver, breaks, and the end of a frame (chapter 7). -/

namespace Sys2Proof.Machine

/-- Whether the receiver of p listens to its line (R133). -/
def State.listens (s : State) (p : Port) : Bool := s.stage != .booting && (s.eng p).state != .disabled

/-- Adds 1 to an error count, which stays at 255 (R137). -/
def countUp (n : Nat) : Nat := if n < 255 then n + 1 else n

/-- The error counts of R135 and R136. -/
inductive ErrorKind where
  | parity | framing | check | overrun
  deriving DecidableEq, Repr

def ErrorCounts.bump (c : ErrorCounts) : ErrorKind → ErrorCounts
  | .parity => { c with parity := countUp c.parity }
  | .framing => { c with framing := countUp c.framing }
  | .check => { c with check := countUp c.check }
  | .overrun => { c with overrun := countUp c.overrun }

/-- An error is counted, LOST is set and LINK_FAULT occurs at the port (R135, R136, R138). -/
def State.linkError (s : State) (p : Port) (k : ErrorKind) (rx : Receiver) : State :=
  let e := s.eng p
  (s.setEng p { e with errors := ErrorCounts.bump e.errors k, lost := true, rx := rx }).occur p Cond.linkFault

/-- The frame being assembled fails (R135). -/
def State.failFrame (s : State) (p : Port) (k : ErrorKind) : State := s.linkError p k .hunt

def State.setRx (s : State) (p : Port) (rx : Receiver) : State := s.setEng p { s.eng p with rx := rx }

/-- A good frame is offered to the request queue; it is lost when the queue is full (R134, R136). -/
def State.offerFrame (s : State) (p : Port) (f : Frame) : State :=
  let e := s.eng p
  if e.requests.length < Config.requestQueueSize then
    s.setEng p { e with requests := e.requests ++ [f], rx := .receiving [] false }
  else s.linkError p .overrun (.receiving [] false)

/-- What the characters of a frame so far amount to (R134, R135). -/
inductive Assembled where
  | partialFrame
  | badLength
  | complete (f : Frame) (good : Bool)
  deriving DecidableEq, Repr

/-- Judges the characters assembled: HEAD, LEN, payload, CHECK (R134). -/
def assembled : List Byte → Assembled
  | head :: len :: rest =>
    if 16 < len.toNat then .badLength
    else if rest.length = len.toNat + 1 then
      let payload := rest.take len.toNat
      .complete ⟨head, payload⟩ (some (crc8 (head :: len :: payload)) == rest.getLast?)
    else .partialFrame
  | _ => .partialFrame

/-- A character judged without error joins the frame (R134, R135). -/
def State.takeByte (s : State) (p : Port) (chars : List Byte) (b : Byte) : State :=
  match assembled (chars ++ [b]) with
  | .partialFrame => s.setRx p (.receiving (chars ++ [b]) false)
  | .badLength => s.failFrame p .framing
  | .complete f true => s.offerFrame p f
  | .complete _ false => s.failFrame p .check

/-- A character received in RECEIVING with no character held (R130, R134, R139). -/
def State.takeChar (s : State) (p : Port) (chars : List Byte) (c : LinkChar) : State :=
  if allSpace c then s.setRx p (.receiving chars true)
  else
    match judgeChar c with
    | .framing => s.failFrame p .framing
    | .parity => s.failFrame p .parity
    | .good => s.takeByte p chars c.data

/-- LINK_CHARACTER (R130, R133 to R136). While an all-space character is held, the line has not returned to mark and no
character can begin (log 20). -/
def execLinkCharacter (p : Port) (c : LinkChar) (s : State) : Host.Outcome State Fault Refusal :=
  .next (if s.listens p then
      match (s.eng p).rx with
      | .hunt => s
      | .receiving _ true => s
      | .receiving chars false => s.takeChar p chars c
    else s)

/-- FRAME_IDLE_TIMEOUT: the line has stayed at mark for 3 character times inside a frame (R135, fourth row). -/
def execFrameIdleTimeout (p : Port) (s : State) : Host.Outcome State Fault Refusal :=
  .next (if s.listens p then
      match (s.eng p).rx with
      | .receiving (_ :: _) false => s.failFrame p .framing
      | _ => s
    else s)

/-- HUNT_END: the line has been at mark for 3 character times in HUNT (R133). -/
def execHuntEnd (p : Port) (s : State) : Host.Outcome State Fault Refusal :=
  .next (if s.listens p && (s.eng p).rx == .hunt then s.setRx p (.receiving [] false) else s)

/-- LINE_RETURN_TO_MARK: a held all-space character is judged a framing error (R139, R135). -/
def execLineReturnToMark (p : Port) (s : State) : Host.Outcome State Fault Refusal :=
  .next (if s.listens p then
      match (s.eng p).rx with
      | .receiving _ true => s.failFrame p .framing
      | _ => s
    else s)

/-- A break at p (R140): the detach effects run at an ATTACHED or HELD port, the lists are emptied, the link is cut and
LOST is cleared; the pass that the removals trigger follows. -/
def State.breakPort (s : State) (p : Port) : State :=
  let removed := (s.eng p).state.isOn && !(s.queue p).isEmpty
  (((s.detachEffects p .detached).cutLink p).triggerIf removed)

/-- BREAK (R139, R140). -/
def execBreak (p : Port) (s : State) : Host.Outcome State Fault Refusal :=
  .next (if s.listens p then (s.breakPort p).settle else s)

/-- The offer timer starts when the NOTICE frame has been sent and p is still in the offer set (R97, R117). -/
def State.startOfferTimer (s : State) (p : Port) (info : NoticeInfo) : State :=
  s.modNotice info.src (fun n =>
    if n.mark = info.mark ∧ n.offers.has p ∧ (s.portCfg p).offerLimit ≠ 0 then
      { n with offerTimers := n.offerTimers.set p (some (s.portCfg p).offerLimit.toNat) }
    else n)

/-- A sent RESPONSE counts for a pending link rate (R131). -/
def rateSent (r : Option PendingRate) : Option PendingRate := r.map (fun x => { x with after := x.after - 1 })

/-- The end of a frame sent whole (R97, R131, R170). -/
def State.frameEnded (s : State) (p : Port) (f : TxFrame) : State :=
  let s := match f.body with
    | .notice info => s.startOfferTimer p info
    | .response _ => s.setEng p { s.eng p with ratePending := rateSent (s.eng p).ratePending }
    | .withdrawn _ => s
  (s.autoClear p).setEng p { s.eng p with tx := .idle }

/-- FRAME_SENT (R97, R143, R170); of a frame that was cut off only the character in progress was left (log 15). -/
def execFrameSent (p : Port) (s : State) : Host.Outcome State Fault Refusal :=
  .next (match (s.eng p).tx with
    | .idle => s
    | .sending f => (s.frameEnded p f).settle
    | .cutOff => (s.setEng p { s.eng p with tx := .idle }).settle)

end Sys2Proof.Machine
end

