-- ==== Sys2Proof/Machine/Ports.lean ====
section
/-! DEFINITION. The requests of port states, POLL, STATUS, ACK_STATUS and RESUME_FIELD (chapters 8 and 9). -/

namespace Sys2Proof.Machine

def State.setPortState (s : State) (p : Port) (st : PortState) : State := s.setEng p { s.eng p with state := st }

/-- ATTACH decided at the port engine (R150). -/
def State.decideAttach (s : State) (p : Port) (f : Frame) : State :=
  let w := (f.byte 0).toNat
  match (s.eng p).state with
  | .disabled => s
  | .detached => (s.setPortState p (.attached w)).triggerPass.respond p (f.answer .ok [])
  | .attached _ =>
    if s.offerCount p ≤ w then (s.setPortState p (.attached w)).respond p (f.answer .ok [])
    else s.respond p (f.answer .badArg [])
  | .held _ =>
    if s.offerCount p ≤ w then (s.setPortState p (.held w)).respond p (f.answer .ok [])
    else s.respond p (f.answer .badArg [])

/-- ATTACH (R150). -/
def execAttach (p : Port) (s : State) : Host.Outcome State Fault Refusal :=
  .next (s.execKind p .attach (fun _ => true) (fun f t => t.decideAttach p f))

/-- DETACH decided at the port engine: the detach effects, then OK on the emptied list (R151). R40 and R154 say that p
receives nothing of the work it held, whichever of its end and the detach is taken first; that a frame about such work
that is in transmission is completed all the same, as R151 and R143 say, is the model's choice (log 36). -/
def State.decideDetach (s : State) (p : Port) (f : Frame) : State :=
  let removed := !(s.queue p).isEmpty
  ((s.detachEffects p .detached).triggerIf removed).respond p (f.answer .ok [])

/-- DETACH (R151). -/
def execDetach (p : Port) (s : State) : Host.Outcome State Fault Refusal :=
  .next (s.execKind p .detach (fun _ => true) (fun f t => t.decideDetach p f))

/-- HOLD decided at the port engine (R152). -/
def State.decideHold (s : State) (p : Port) (f : Frame) : State :=
  match (s.eng p).state with
  | .attached w => (s.setPortState p (.held w)).respond p (f.answer .ok [])
  | _ => s.respond p (f.answer .ok [])

/-- HOLD (R152). -/
def execHold (p : Port) (s : State) : Host.Outcome State Fault Refusal :=
  .next (s.execKind p .hold (fun _ => true) (fun f t => t.decideHold p f))

/-- RESUME decided at the port engine (R152). -/
def State.decideResume (s : State) (p : Port) (f : Frame) : State :=
  match (s.eng p).state with
  | .held w => (s.setPortState p (.attached w)).triggerPass.respond p (f.answer .ok [])
  | _ => s.respond p (f.answer .ok [])

/-- RESUME (R152). -/
def execResume (p : Port) (s : State) : Host.Outcome State Fault Refusal :=
  .next (s.execKind p .resume (fun _ => true) (fun f t => t.decideResume p f))

/-- POLL of a field source is decided at the field bus controller (R38, R159); POLL of a direct line is a line query
answered at once (R160). -/
def State.decidePoll (s : State) (p : Port) (f : Frame) : State :=
  let i := f.src
  match i.line with
  | some k =>
    let t := s.lineQuery k
    t.respond p (f.answer .ok ([f.byte 0] ++ le16 (latchSet (t.line k).latch) ++ [0]))
  | none =>
    if s.pollOutstanding p then s.respond p (f.answer .busy [f.byte 0])
    else if s.bus.pollQueue.any (fun e => e.src == i) then
      s.setBus { s.bus with pollQueue := s.bus.pollQueue.map (fun e =>
        if e.src = i then { e with requesters := e.requesters.insert p } else e) }
    else
      (s.setBus { s.bus with pollQueue := s.bus.pollQueue ++ [⟨i, PortSet.empty.insert p⟩] }).arbiter

/-- POLL (R159, R160). -/
def execPoll (p : Port) (s : State) : Host.Outcome State Fault Refusal :=
  .next (s.execKind p .poll (fun _ => true) (fun f t => t.decidePoll p f))

/-- The status record of a port (R146, R158). -/
def State.statusRecord (s : State) (p : Port) : List Byte :=
  let e := s.eng p
  [byteOf (s.stage.code + 4 * e.state.code + 16 * e.state.window),
   byteOf (s.offerCount p),
   byteOf (s.queue p).length,
   s.present p,
   s.latched p,
   byteOf (portCode s.config.right),
   byteOf s.stranded.length,
   byteOf e.errors.parity, byteOf e.errors.framing, byteOf e.errors.check, byteOf e.errors.overrun]

/-- STATUS (R158). -/
def execStatus (p : Port) (s : State) : Host.Outcome State Fault Refusal :=
  .next (s.execKind p .status (fun _ => true) (fun f t => t.respond p (f.answer .ok (t.statusRecord p))))

/-- ACK_STATUS decided at the attention unit (R167). -/
def State.decideAck (s : State) (p : Port) (f : Frame) : State :=
  let t := s.acknowledge p (f.byte 0)
  t.respond p (f.answer .ok [t.latched p])

/-- ACK_STATUS (R167). -/
def execAckStatus (p : Port) (s : State) : Host.Outcome State Fault Refusal :=
  .next (s.execKind p .ackStatus (fun _ => true) (fun f t => t.decideAck p f))

/-- RESUME_FIELD decided at the field bus controller: the run becomes 0 and the flag is cleared; a cleared flag makes the
arbiter choose, with FAT as sampled then (R28, R42, R162). -/
def State.decideResumeField (s : State) (p : Port) (fatLow : Bool) (f : Frame) : State :=
  let t := (s.setBus { s.bus with bidRun := 0, suspended := false }).respond p (f.answer .ok [])
  if s.bus.suspended then (t.sampleFat fatLow).arbiter else t

/-- RESUME_FIELD (R162). -/
def execResumeField (p : Port) (fatLow : Bool) (s : State) : Host.Outcome State Fault Refusal :=
  .next (s.execKind p .resumeField (fun _ => true) (fun f t => t.decideResumeField p fatLow f))

/-- UNKNOWN_REQUEST: a head frame whose HEAD names no request kind is answered UNKNOWN (R156, check 1). -/
def execUnknownRequest (p : Port) (s : State) : Host.Outcome State Fault Refusal :=
  .next (s.execHead p (fun f => (ReqKind.ofHead f.head).isNone) (fun f t => t.respond p (f.answer .unknown [])))

end Sys2Proof.Machine
end

