-- ==== Sys2Proof/Machine/Startup.lean ====
section
/-! DEFINITION. Full reset, the end of the boot load, and CLEAR_ALL (chapter 11). -/

namespace Sys2Proof.Machine

/-- FULL_RESET (R184): every block takes its reset state; the store image is non-volatile and kept, a STORE in flight
having left it marked invalid (R181). The FAT level is an input and the queue and the free-value counter are the
model's. -/
def State.fullReset (s : State) : State :=
  { State.reset with
    pending := s.pending
    bus := { FieldBus.reset with fatLow := s.bus.fatLow }
    config := { State.reset.config with image := s.config.image }
    free := s.free }

def execFullReset (s : State) : Host.Outcome State Fault Refusal := .next s.fullReset

/-- The tables in force after the load: those of a valid image, else the defaults, and then STORE_BLANK is present
(R182, R183). -/
def State.loadTables (s : State) : State :=
  match s.config.image.load with
  | some t => { s with config := { s.config with tables := t, storeBlank := false, storeFault := false } }
  | none => { s with config := { s.config with tables := defaultTables, storeBlank := true, storeFault := false } }

/-- The state of each source from its Enabled field (R18). -/
def State.startSources (s : State) : State :=
  { s with sources := { s.sources with
      rt := tabulate (fun i => { s.src i with state := if (s.cfg i).enabled then .quiet else .disabled }) } }

/-- Each port becomes DETACHED or DISABLED by its Enabled field with its receiver in HUNT, at the rate of its entry
(R147, R130). -/
def State.startPorts (s : State) : State :=
  { s with engines := PerPort.build (fun p =>
      { PortEngine.reset with
        state := if (s.portCfg p).enabled then .detached else .disabled
        rate := (s.portCfg p).rate }) }

/-- The present conditions join every port's latched set (R166). -/
def State.latchPresent (s : State) : State :=
  { s with attention := { s.attention with latched := PerPort.build (fun p => s.latched p ||| s.present p) } }

/-- BOOT_LOAD_COMPLETE (R185), in the order of its steps. -/
def execBootLoadComplete (fatLow : Bool) (s : State) : Host.Outcome State Fault Refusal :=
  .next (if s.stage = .booting then
    ((s.loadTables.startSources.startPorts.latchPresent.sampleFat fatLow).beginScan).settle
  else s)

/-- Every notice ends with CLEARED withdrawals, in an order that the spec leaves open (log 7), and the pass with them
(R66, R189 step 1, R90). -/
def State.endAllNotices (s : State) : State :=
  let live := s.noticesWith (fun _ => true)
  let t := (s.inFreeOrder live).foldl (fun t i => t.endNotice i (some .cleared)) (s.spendFree live)
  t.setPass [] false

/-- What CLEAR_ALL leaves of a source's runtime fields (R19). -/
def SourceRt.cleared (r : SourceRt) : SourceRt :=
  if r.state = .disabled then r
  else { r with state := .quiet, arrears := 0, code15 := false, failures := 0 }

/-- The source unit's part of CLEAR_ALL (R19, R189 step 2). -/
def State.clearSources (s : State) : State :=
  { s with sources := { s.sources with rt := tabulate (fun i => (s.src i).cleared) } }

/-- CANCELLED for a poll entry is made at every requester (R45, R159). -/
def State.cancelPoll (s : State) (e : PollEntry) : State :=
  e.requesters.toList.foldl (fun t p => t.respond p ⟨ReqKind.poll.head, .cancelled, [byteOf e.src.num]⟩) s

/-- The field bus controller's part of CLEAR_ALL: the clear list and poll queue are emptied, the polls are cancelled,
and a transaction in flight is marked (R45, R189 step 3). -/
def State.cancelBusWork (s : State) : State :=
  let t := s.bus.pollQueue.foldl (fun t e => t.cancelPoll e) s
  let t := t.setBus { t.bus with clearList := [], pollQueue := [] }
  match s.bus.state with
  | .inFlight f =>
    match f.work with
    | .poll e =>
      let t := t.cancelPoll e
      let g : InFlight := { f with work := .poll ⟨e.src, PortSet.empty⟩, afterClearAll := true }
      t.setBus { t.bus with state := .inFlight g }
    | _ => t.setBus { t.bus with state := .inFlight { f with afterClearAll := true } }
  | _ => t

/-- The acceptance of CLEAR_ALL, in the order of its steps (R189). -/
def State.acceptClearAll (s : State) (p : Port) (f : Frame) : State :=
  ((((s.endAllNotices).clearSources).cancelBusWork).respond p (f.answer .ok [])).beginScan

/-- CLEAR_ALL (R188, R189). -/
def execClearAll (p : Port) (s : State) : Host.Outcome State Fault Refusal :=
  .next (s.execKind p .clearAll (fun _ => true) (fun f t =>
    if t.config.right = some p then t.acceptClearAll p f else t.respond p (f.answer .noRight [])))

end Sys2Proof.Machine
end

