-- ==== Sys2Proof/Machine/TimeBase.lean ====
section
/-! DEFINITION. The 1 ms tick: the direct-line filters and the timers; and the expiries (chapters 1 and 6). -/

namespace Sys2Proof.Machine

/-- The level of a sample under a polarity (R6); `high` says whether the line is high. -/
def levelOf (pol : Polarity) (high : Bool) : Level :=
  match pol, high with
  | .activeLow, true => .inactive
  | .activeLow, false => .active
  | .activeHigh, true => .active
  | .activeHigh, false => .inactive

/-- One sample of a line's filter (R6). -/
def LineRt.sample (l : LineRt) (level : Level) (filterCount : Nat) : LineRt :=
  if level = l.filtered then { l with stability := 0 }
  else if filterCount ≤ l.stability + 1 then { l with filtered := level, stability := 0 }
  else { l with stability := l.stability + 1 }

/-- The filter count and polarity in force at a line: 4 and ACTIVE_LOW until the boot load completes (R6). -/
def State.filterCount (s : State) : Nat :=
  if s.stage = .booting then Config.bootFilterCount else s.config.tables.device.filterCount.toNat

def State.linePolarity (s : State) (k : Fin 8) : Polarity :=
  if s.stage = .booting then .activeLow else (s.cfg (Src.ofLine k)).polarity

/-- A line after one sample. -/
def State.sampledLine (s : State) (levels : BitVec 8) (k : Fin 8) : LineRt :=
  (s.line k).sample (levelOf (s.linePolarity k) (levels.getLsbD k.val)) s.filterCount

/-- The lines whose filtered level a sample changes to ACTIVE while they can report: in SCANNING or RUNNING, and
enabled (R7). -/
def State.risingLines (s : State) (levels : BitVec 8) : List Src :=
  Src.all.filter (fun i =>
    match i.line with
    | none => false
    | some k => s.stage != .booting && (s.src i).state != .disabled && (s.line k).filtered == .inactive &&
        (s.sampledLine levels k).filtered == .active)

/-- The change to ACTIVE of a line's filtered level: the latch becomes {0} and {0} is reported (R7). -/
def State.lineRose (s : State) (i : Src) : State :=
  match i.line with
  | none => s
  | some k => (s.setLine k { s.line k with latch := true }).reportArrival i code0Set

/-- A tick of a notice's timers; a timer at 0 has expired and waits for its expiry to be taken (R116). -/
def Notice.tick (n : Notice) : Notice :=
  { n with offerTimers := PerPort.build (fun p => (n.offerTimers.get p).map (fun t => t - 1))
           serviceTimer := n.serviceTimer.map (fun t => t - 1) }

/-- Every running timer counts down by one (R116). -/
def State.tickTimers (s : State) : State :=
  { s with notices := { s.notices with records := tabulate (fun i => (s.notice i).map Notice.tick) } }

/-- All lines take their sample. -/
def State.sampleLines (s : State) (levels : BitVec 8) : State :=
  { s with sources := { s.sources with lines := tabulate (s.sampledLine levels) } }

/-- LINE_SAMPLE (R6, R7, R116): lines that rise in one tick report in an order that the spec leaves open (log 6). -/
def execLineSample (levels : BitVec 8) (s : State) : Host.Outcome State Fault Refusal :=
  let rising := s.risingLines levels
  .next (((s.inFreeOrder rising).foldl State.lineRose
    (((s.tickTimers).sampleLines levels).spendFree rising)).settle)

/-- An offer of p ends by expiry (R119). -/
def State.expireOffer (s : State) (p : Port) (i : Src) (n : Notice) : State :=
  ((s.dropOffer p i).withdraw p ⟨i, n.mark, .expired⟩).walkIfBare i

/-- OFFER_EXPIRY: taken when the timer of an offer of p stands at 0 (R116, R119, R120). -/
def execOfferExpiry (p : Port) (i : Src) (s : State) : Host.Outcome State Fault Refusal :=
  .next (match s.notice i with
    | none => s
    | some n =>
      if n.offers.has p && n.offerTimers.get p == some 0 then (s.expireOffer p i n).settle else s)

/-- The claim of p is revoked by service expiry (R124). -/
def State.expireService (s : State) (p : Port) (i : Src) (n : Notice) : State :=
  (((s.revokeClaim p i).withdraw p ⟨i, n.mark, .expired⟩).occur p Cond.takeover).walk i

/-- SERVICE_EXPIRY: taken when the service timer of a claim stands at 0 (R116, R124). -/
def execServiceExpiry (i : Src) (s : State) : Host.Outcome State Fault Refusal :=
  .next (match s.notice i with
    | none => s
    | some n =>
      match n.state with
      | .claimed p => if n.serviceTimer = some 0 then (s.expireService p i n).settle else s
      | .waiting | .stranded => s)

end Sys2Proof.Machine
end

