-- ==== Sys2Proof/Machine/Dispatch.lean ====
section
/-! DEFINITION. The meaning of every command, one arm for each row of the table of operations and events. -/

namespace Sys2Proof.Machine

def exec (i : Instr) (s : State) : Host.Outcome State Fault Refusal :=
  match i with
  | .fullReset => Sys2Proof.Machine.execFullReset s
  | .bootLoadComplete fatLow => Sys2Proof.Machine.execBootLoadComplete fatLow s
  | .lineSample levels => Sys2Proof.Machine.execLineSample levels s
  | .offerExpiry p src => Sys2Proof.Machine.execOfferExpiry p src s
  | .serviceExpiry src => Sys2Proof.Machine.execServiceExpiry src s
  | .linkCharacter p c => Sys2Proof.Machine.execLinkCharacter p c s
  | .frameIdleTimeout p => Sys2Proof.Machine.execFrameIdleTimeout p s
  | .huntEnd p => Sys2Proof.Machine.execHuntEnd p s
  | .linkBreak p => Sys2Proof.Machine.execBreak p s
  | .frameSent p => Sys2Proof.Machine.execFrameSent p s
  | .fatLow => Sys2Proof.Machine.execFatLow s
  | .gapEnd fatLow => Sys2Proof.Machine.execGapEnd fatLow s
  | .bidRoundEnd address report check => Sys2Proof.Machine.execBidRoundEnd address report check s
  | .pollEnd reply => Sys2Proof.Machine.execPollEnd reply s
  | .clearEnd reply => Sys2Proof.Machine.execClearEnd reply s
  | .scanStepEnd reply => Sys2Proof.Machine.execScanStepEnd reply s
  | .passWalk => Sys2Proof.Machine.execPassWalk s
  | .attach p => Sys2Proof.Machine.execAttach p s
  | .detach p => Sys2Proof.Machine.execDetach p s
  | .hold p => Sys2Proof.Machine.execHold p s
  | .resume p => Sys2Proof.Machine.execResume p s
  | .claim p => Sys2Proof.Machine.execClaim p s
  | .release p => Sys2Proof.Machine.execRelease p s
  | .close p => Sys2Proof.Machine.execClose p s
  | .poll p => Sys2Proof.Machine.execPoll p s
  | .sweep p => Sys2Proof.Machine.execSweep p s
  | .readEntry p => Sys2Proof.Machine.execReadEntry p s
  | .sourceDisable p => Sys2Proof.Machine.execSourceDisable p s
  | .sourceEnable p => Sys2Proof.Machine.execSourceEnable p s
  | .writeSourceEntry p => Sys2Proof.Machine.execWriteSourceEntry p s
  | .writeClassEntry p => Sys2Proof.Machine.execWriteClassEntry p s
  | .writeOrder p => Sys2Proof.Machine.execWriteOrder p s
  | .portEnable p => Sys2Proof.Machine.execPortEnable p s
  | .portDisable p => Sys2Proof.Machine.execPortDisable p s
  | .backlogLimitRaise p => Sys2Proof.Machine.execBacklogLimitRaise p s
  | .backlogLimitLower p => Sys2Proof.Machine.execBacklogLimitLower p s
  | .linkRateWrite p => Sys2Proof.Machine.execLinkRateWrite p s
  | .writePortEntry p => Sys2Proof.Machine.execWritePortEntry p s
  | .writeDeviceEntry p => Sys2Proof.Machine.execWriteDeviceEntry p s
  | .takeRight p => Sys2Proof.Machine.execTakeRight p s
  | .giveRight p => Sys2Proof.Machine.execGiveRight p s
  | .store p => Sys2Proof.Machine.execStore p s
  | .storeComplete content check => Sys2Proof.Machine.execStoreComplete content check s
  | .clearAll p => Sys2Proof.Machine.execClearAll p s
  | .status p => Sys2Proof.Machine.execStatus p s
  | .ackStatus p => Sys2Proof.Machine.execAckStatus p s
  | .resumeField p fatLow => Sys2Proof.Machine.execResumeField p fatLow s
  | .unknownRequest p => Sys2Proof.Machine.execUnknownRequest p s
  | .lineReturnToMark p => Sys2Proof.Machine.execLineReturnToMark p s

end Sys2Proof.Machine
end

