-- ==== Sys2Proof/Safety.lean ====
section
/-! DEFINITION. What is claimed of the part: the form in which a command's outcome is stated, what a port owes and holds,
and the invariants that every step keeps. -/

namespace Sys2Proof.Machine

/-! ### The outcome of a request -/

/-- The engine of p executes f next: it may execute (R155), f heads its request queue with `rest` behind it, f is a
request of kind k, and no decoding check refuses it (R156). -/
structure Executes (s : State) (p : Port) (k : ReqKind) (f : Frame) (rest : List Frame) : Prop where
  may : s.mayExecute p = true
  queued : (s.eng p).requests = f :: rest
  kind : f.head = k.head
  admitted : s.decodeCheck p k f = none

/-- What s becomes when port p, whose engine is left as e, answers r: a transmitter that is between frames begins the
RESPONSE frame with the flags of the moment, and any other lets the response wait (R141, R143, R144, R138, R170). -/
def State.reply (s : State) (p : Port) (e : PortEngine) (r : Response) : State :=
  if e.tx = .idle then
    (s.setEng p { e with lost := false, tx := .sending ⟨s.eFlag p, s.wFlag p, e.lost, .response r⟩ }).setSignalled p
      (s.signalSet p)
  else s.setEng p { e with responses := e.responses ++ [r] }

/-- The port owes its master the response r, or is sending it. -/
def State.owes (s : State) (p : Port) (r : Response) : Prop :=
  r ∈ (s.eng p).responses ∨ ∃ f, (s.eng p).tx = .sending f ∧ f.body = .response r

/-- The port has the withdrawal w to announce, or is sending it. -/
def State.announces (s : State) (p : Port) (w : Withdrawal) : Prop :=
  w ∈ (s.eng p).withdrawals ∨ ∃ f, (s.eng p).tx = .sending f ∧ f.body = .withdrawn w

/-- The notice of i waits with p in its tried set, or is stranded with an empty tried set: what is left of a notice that
p has let go (R51, R87, R110, R119, R124). -/
def State.letGo (s : State) (p : Port) (i : Src) (m : Notice) : Prop :=
  (m.state = .waiting ∧ m.tried.has p = true) ∨
    (m.state = .stranded ∧ m.tried = PortSet.empty ∧ i ∈ s.stranded)

/-- A WRITE_ENTRY from p that its configuration unit accepts: executed, by the holder of the right, with no STORE in
flight (R174), of the entry `index` of a table. -/
structure WriteTaken (s : State) (p : Port) (f : Frame) (rest : List Frame) (table index : Byte) (content : List Byte) :
    Prop where
  executes : Executes s p .writeEntry f rest
  payload : f.payload = table :: index :: content
  right : s.config.right = some p
  store : s.config.store = .idle

/-- The response OK to a write (R174). -/
def writeOk (table index : Byte) : Response := ⟨ReqKind.writeEntry.head, .ok, [table, index]⟩

/-! ### Which command executes which frame -/

end Sys2Proof.Machine

namespace Sys2Proof

open Machine

/-- The port and the request kind of a request command (R155); none for the other commands. -/
def Instr.request : Instr → Option (Port × ReqKind)
  | .attach p => some (p, .attach) | .detach p => some (p, .detach) | .hold p => some (p, .hold)
  | .resume p => some (p, .resume) | .claim p => some (p, .claim) | .release p => some (p, .release)
  | .close p => some (p, .close) | .poll p => some (p, .poll) | .sweep p => some (p, .sweep)
  | .readEntry p => some (p, .readEntry) | .takeRight p => some (p, .takeRight) | .giveRight p => some (p, .giveRight)
  | .store p => some (p, .store) | .clearAll p => some (p, .clearAll) | .status p => some (p, .status)
  | .ackStatus p => some (p, .ackStatus) | .resumeField p _ => some (p, .resumeField)
  | .sourceDisable p => some (p, .writeEntry) | .sourceEnable p => some (p, .writeEntry)
  | .writeSourceEntry p => some (p, .writeEntry) | .writeClassEntry p => some (p, .writeEntry)
  | .writeOrder p => some (p, .writeEntry) | .portEnable p => some (p, .writeEntry)
  | .portDisable p => some (p, .writeEntry) | .backlogLimitRaise p => some (p, .writeEntry)
  | .backlogLimitLower p => some (p, .writeEntry) | .linkRateWrite p => some (p, .writeEntry)
  | .writePortEntry p => some (p, .writeEntry) | .writeDeviceEntry p => some (p, .writeEntry)
  | .fullReset => none | .bootLoadComplete _ => none | .lineSample _ => none | .offerExpiry _ _ => none
  | .serviceExpiry _ => none | .linkCharacter _ _ => none | .frameIdleTimeout _ => none | .huntEnd _ => none
  | .linkBreak _ => none | .frameSent _ => none | .fatLow => none | .gapEnd _ => none | .bidRoundEnd _ _ _ => none
  | .pollEnd _ => none | .clearEnd _ => none | .scanStepEnd _ => none | .passWalk => none
  | .storeComplete _ _ => none | .unknownRequest _ => none | .lineReturnToMark _ => none

/-- Whether a WRITE_ENTRY row is the row of a frame: by the table that payload byte 0 names, and where the row says more,
by Enabled, the backlog limit or the link rate of the content against the entry in force. Other requests have one row. -/
def Instr.fits (c : Instr) (s : State) (f : Frame) : Bool :=
  match c with
  | .sourceDisable _ => f.writes 0 && !f.saysEnabled
  | .sourceEnable _ => f.writes 0 && f.saysEnabled
  | .writeSourceEntry _ => f.writes 0 || f.writesNone
  | .writeClassEntry _ => f.writes 2 || f.writesNone
  | .writeOrder _ => f.writes 3 || f.writesNone
  | .portEnable _ => f.writes 4 && f.saysEnabled
  | .portDisable _ => f.writes 4 && !f.saysEnabled
  | .backlogLimitRaise _ => f.writes 4 && decide ((s.namedPort f).backlog.toNat < (f.byte 5).toNat)
  | .backlogLimitLower _ => f.writes 4 && decide ((f.byte 5).toNat < (s.namedPort f).backlog.toNat)
  | .linkRateWrite _ => f.writes 4 && (LinkRate.ofCode (bits (f.byte 2) 2 2) != (s.namedPort f).rate)
  | .writePortEntry _ => f.writes 4 || f.writesNone
  | .writeDeviceEntry _ => f.writes 5 || f.writesNone
  | _ => true

end Sys2Proof

namespace Sys2Proof.Machine

/-- Commands run one after the other. -/
def runs : List Instr → State → Option State
  | [], s => some s
  | c :: rest, s =>
    match exec c s with
    | .next t => runs rest t
    | .fault _ => none
    | .refused _ => none

/-! ### The tables of R156, R157 and R175 as data -/

/-- A row of the tables of R146 and R156: the kind, its HEAD, its LEN where that is fixed, whether it is executed in
SCANNING, and whether at a DETACHED port. -/
structure RequestRow where
  kind : ReqKind
  head : Byte
  len : Option Nat
  scanning : Bool
  detached : Bool
  deriving DecidableEq, Repr

def requestRows : List RequestRow :=
  [⟨.attach, 0x10, some 1, true, true⟩, ⟨.detach, 0x11, some 0, true, false⟩, ⟨.hold, 0x12, some 0, true, false⟩,
   ⟨.resume, 0x13, some 0, true, false⟩, ⟨.claim, 0x20, some 3, false, false⟩, ⟨.release, 0x21, some 3, false, false⟩,
   ⟨.close, 0x22, some 5, false, false⟩, ⟨.poll, 0x23, some 1, false, false⟩, ⟨.sweep, 0x24, some 0, false, false⟩,
   ⟨.readEntry, 0x30, some 2, true, true⟩, ⟨.writeEntry, 0x31, none, false, false⟩,
   ⟨.takeRight, 0x32, some 0, true, false⟩, ⟨.giveRight, 0x33, some 0, true, false⟩,
   ⟨.store, 0x34, some 0, false, false⟩, ⟨.clearAll, 0x35, some 0, false, false⟩,
   ⟨.status, 0x40, some 0, true, true⟩, ⟨.ackStatus, 0x41, some 1, true, true⟩,
   ⟨.resumeField, 0x42, some 0, false, false⟩]

/-- The tables by code with their content length where they are writable, and their first and last index (R146). -/
def tableRows : List (Nat × Option Nat × Nat × Nat) :=
  [(0, some 5, 1, 56), (1, none, 1, 56), (2, some 3, 0, 7), (3, some 8, 0, 0), (4, some 7, 0, 2), (5, some 3, 0, 0)]

/-- LEN is what the row requires (check 2 of R156). -/
def RequestRow.lengthRight (r : RequestRow) (f : Frame) : Bool :=
  match r.len with
  | some n => f.payload.length == n
  | none =>
    match f.payload with
    | [] => false
    | t :: _ => tableRows.any (fun row => row.1 == t.toNat && some f.payload.length == row.2.1.map (2 + ·))

/-- The arguments lie in the ranges of R157. -/
def RequestRow.rangeRight (r : RequestRow) (f : Frame) : Bool :=
  let source := decide (1 ≤ (f.byte 0).toNat) && decide ((f.byte 0).toNat ≤ 56)
  let index := tableRows.any (fun row => row.1 == (f.byte 0).toNat && decide (row.2.2.1 ≤ (f.byte 1).toNat) &&
    decide ((f.byte 1).toNat ≤ row.2.2.2))
  if r.head = 0x10 then decide (1 ≤ (f.byte 0).toNat) && decide ((f.byte 0).toNat ≤ 4)
  else if r.head = 0x20 ∨ r.head = 0x21 ∨ r.head = 0x23 then source
  else if r.head = 0x22 then source && (f.byte 3 != 0 || f.byte 4 != 0)
  else if r.head = 0x30 ∨ r.head = 0x31 then index
  else true

/-- The refusal that checks 2 to 5 of R156 give, in their order. -/
def RequestRow.refusal (r : RequestRow) (s : State) (p : Port) (f : Frame) : Option Status :=
  if r.lengthRight f = false then some .badArg
  else if s.stage ≠ .running ∧ r.scanning = false then some .notReady
  else if ((s.eng p).state = .disabled ∨ (s.eng p).state = .detached) ∧ r.detached = false then some .notAttached
  else if r.rangeRight f = false then some .badArg
  else none

/-- The content of a write lies in the ranges of R175, read from its bytes. -/
def contentInRange (table : Nat) (content : List Byte) : Prop :=
  match table, content with
  | 0, [_, b1, _, m1, _] =>
    bits b1 0 2 ≠ 3 ∧ (bits b1 2 2 = 3 → bits b1 4 2 = 3) ∧ bits b1 2 2 ≠ bits b1 0 2 ∧ bits b1 4 2 ≠ bits b1 0 2 ∧
      (bits b1 4 2 = 3 ∨ bits b1 4 2 ≠ bits b1 2 2) ∧ m1.getLsbD 7 = false
  | 2, [m, _, _] => m = 0 ∨ m = 1
  | 3, l => l.length = 8 ∧ (∀ b ∈ l, b.toNat ≤ 7) ∧ l.Nodup
  | 4, [_, _, _, backlog, _, _, _] => 1 ≤ backlog.toNat ∧ backlog.toNat ≤ 56
  | 5, [_, w, n] => 8 ≤ w.toNat ∧ 1 ≤ n.toNat ∧ n.toNat ≤ 15
  | _, _ => False

/-! ### Rest between events -/

/-- Whether a link rate is due at the next moment between frames (R131). -/
def PortEngine.rateDue (e : PortEngine) : Bool :=
  match e.ratePending with
  | some ⟨_, 0⟩ => true
  | _ => false

/-- A transmitter that is between frames has no link rate to put in force and nothing to send (R131, R143, R95). -/
def PortQuiet (s : State) (p : Port) : Prop :=
  (s.eng p).tx = .idle →
    (s.eng p).rateDue = false ∧
      ((s.eng p).state ≠ .disabled →
        (s.eng p).responses = [] ∧ (s.eng p).withdrawals = [] ∧ s.canTakeHead p = false)

/-- Every reference designates a living notice (R75), and every transmitter is sending or has nothing to send. -/
structure Settled (s : State) : Prop where
  live : ∀ p, ∀ i ∈ s.queue p, (s.notice i).isSome = true
  quiet : ∀ p, PortQuiet s p

/-! ### Placement walks -/

/-- The notice of i is referenced at p or offered to it (R53). -/
def State.placedAt (s : State) (i : Src) (p : Port) : Bool :=
  (s.queue p).contains i || match s.notice i with
    | some n => n.offers.has p
    | none => false

/-- The other notices that have come to port p between s and t. -/
def newcomers (s t : State) (i : Src) (p : Port) : Nat :=
  (Src.all.filter (fun j => j != i && t.placedAt j p && !s.placedAt j p)).length

/-- A walk finds no skip condition of R84 at port p for a notice of class cls that is neither referenced nor offered
anywhere, with p's queue at `len` references. -/
def State.takes (s : State) (cls : Fin 8) (tried : PortSet) (len : Port → Nat) (p : Port) : Bool :=
  !tried.has p && (match (s.eng p).state with | .attached _ => true | .held _ => true | _ => false) &&
    (s.portCfg p).classFilter.getLsbD cls.val && decide (len p < (s.portCfg p).backlog.toNat)

/-- What is left in t of a notice of i that was walked with no reference and no offer, with the tried set `tried` and the
queues at `len` references, m being its record in t: STRANDED with an empty tried set where no port of the route takes
it; else WAITING, a DIRECTED one at the first port of the route that takes it, a SHARED one at every port of it that
does (R83 to R87). The route, the ports and their entries are those of s. -/
def Walked (s t : State) (i : Src) (tried : PortSet) (len : Port → Nat) (m : Notice) : Prop :=
  ((∀ p ∈ (s.cfg i).route.ports, s.takes m.cls tried len p = false) →
    m.state = .stranded ∧ m.tried = PortSet.empty ∧ i ∈ t.stranded ∧ ∀ p, i ∉ t.queue p ∧ m.offers.has p = false) ∧
  ((∃ p ∈ (s.cfg i).route.ports, s.takes m.cls tried len p = true) →
    m.state = .waiting ∧ m.tried = tried ∧
    (m.mode = .shared → ∀ p, (i ∈ t.queue p ∨ m.offers.has p = true) ↔
      (p ∈ (s.cfg i).route.ports ∧ s.takes m.cls tried len p = true)) ∧
    (m.mode = .directed → ∀ p, (i ∈ t.queue p ∨ m.offers.has p = true) ↔
      (s.cfg i).route.ports.find? (s.takes m.cls tried len) = some p))

/-- A walk between s and t, on the queues of s, less the notice's own references, and on what earlier walks of the event
have added to them: exactly the queues of s where no other notice has come to a port (R83). -/
def WalkedAmong (s t : State) (i : Src) (tried : PortSet) (m : Notice) : Prop :=
  ∃ len : Port → Nat, Walked s t i tried len m ∧
    ∀ p, ((s.queue p).filter (fun j => j != i)).length ≤ len p ∧
      len p ≤ ((s.queue p).filter (fun j => j != i)).length + newcomers s t i p

/-! ### Openings and failed exchanges -/

/-- The new conditions of a report of source i (R10). -/
def State.newConds (s : State) (i : Src) (report : CodeSet) : CodeSet :=
  (report &&& (s.cfg i).mask) ||| (if (s.src i).code15 then 0x8000 else 0)

/-- A notice has opened for i between s and t with the given conditions, as R13 says, and has been walked with an empty
tried set. -/
def Opened (s t : State) (i : Src) (conds : CodeSet) : Prop :=
  (t.src i).state = .opened ∧ (t.src i).openings = (s.src i).openings + 1 ∧
    ∃ n, t.notice i = some n ∧ n.mark = (s.src i).openings + 1 ∧ n.conds = conds ∧ n.cls = (s.cfg i).cls ∧
      n.mode = (s.cfg i).mode ∧ s.notices.nextOrder ≤ n.order ∧ n.order < t.notices.nextOrder ∧ n.takeover = false ∧
      ((n.state = .waiting ∧ t.hasPlace i = true) ∨ (n.state = .stranded ∧ i ∈ t.stranded)) ∧
      (Settled s → WalkedAmong s t i PortSet.empty n)

/-- The notice takes further conditions (R12). -/
def Notice.merges (n : Notice) : Prop := n.state = .stranded ∨ (n.state = .waiting ∧ n.shown = false)

/-- An opening edge made in s: the transaction of a piece of work, at the field rate and reply window in force (R32). -/
def State.opening (s : State) (w : BusWork) : BusState :=
  .inFlight ⟨w, s.config.tables.device.rate, s.config.tables.device.window, false⟩

/-- No reply within the reply window w, or a reply with a bad check (R29). -/
def failedReply (w : Byte) : Option FieldReply → Prop
  | some x => w.toNat < x.lead ∨ x.check ≠ fieldCheck x.report
  | none => True

/-- The acknowledge slot of an exchange that failed: released after a bad check, not given without a reply (R31). -/
def failedAck (w : Byte) : Option FieldReply → AckSlot
  | some x => if w.toNat < x.lead then .notGiven else .refused
  | none => .notGiven

/-! ### What an event leaves as it was -/

/-- An event that concerns one source: every other source and notice, the configuration unit and the stage stand, and no
latched code is lost. -/
structure TouchesOnly (s t : State) (i : Src) : Prop where
  notices : ∀ j, j ≠ i → t.notice j = s.notice j
  sources : ∀ j, j ≠ i → t.src j = s.src j
  config : t.config = s.config
  stage : t.stage = s.stage
  latched : ∀ p, s.latched p &&& t.latched p = s.latched p

/-- Every port engine stands, but for its withdrawal list and the frame in transmission. -/
def LinksKept (s t : State) : Prop :=
  ∀ p, t.eng p = { s.eng p with withdrawals := (t.eng p).withdrawals, tx := (t.eng p).tx }

/-- A report of source i, bit 15 already removed, has arrived between s and t, and its new conditions are applied by the
state of the source and by that of its notice (R10 to R13); not the clear reply of a clear (R60). -/
structure ReportArrives (s t : State) (i : Src) (report : CodeSet) : Prop where
  touches : TouchesOnly s t i
  discarded : (s.src i).state = .disabled →
    t.sources = s.sources ∧ t.notices = s.notices ∧ t.delivery = s.delivery
  noted : (s.src i).state ≠ .disabled → (t.src i).reported = report ∧ (t.src i).reach = .reachable ∧
    (t.src i).failures = 0 ∧ (t.src i).code15 = (s.src i).code15
  opens : (s.src i).state = .quiet → s.newConds i report ≠ 0 →
    Opened s t i (s.newConds i report) ∧ (t.src i).arrears = (s.src i).arrears
  rests : (s.src i).state = .quiet → s.newConds i report = 0 →
    (t.src i).state = .quiet ∧ t.notices = s.notices ∧ t.delivery = s.delivery
  merges : ∀ n, (s.src i).state = .opened → s.notice i = some n → Notice.merges n →
    t.notice i = some { n with conds := n.conds ||| s.newConds i report } ∧
      (t.src i).arrears = (s.src i).arrears ∧ t.delivery = s.delivery
  waits : ∀ n, (s.src i).state = .opened → s.notice i = some n → ¬ Notice.merges n →
    t.notices = s.notices ∧ t.delivery = s.delivery ∧
      (t.src i).arrears = (s.src i).arrears ||| (s.newConds i report &&& ~~~n.conds)
  closing : (s.src i).state = .closing → (t.src i).state = .closing ∧ t.notices = s.notices ∧
    t.delivery = s.delivery ∧ (t.src i).arrears = (s.src i).arrears ||| s.newConds i report

/-- A failed exchange with source i between s and t, applied by the failure run, by the state of the source and by that of
its notice (R16, R17, R11). -/
structure FailedExchange (s t : State) (i : Src) : Prop where
  touches : TouchesOnly s t i
  kept : (s.src i).state = .disabled ∨ 3 ≤ (s.src i).failures →
    t.sources = s.sources ∧ t.notices = s.notices ∧ t.delivery = s.delivery
  counted : (s.src i).state ≠ .disabled → (s.src i).failures < 2 →
    t.src i = { s.src i with failures := (s.src i).failures + 1 } ∧ t.notices = s.notices ∧ t.delivery = s.delivery
  third : (s.src i).state ≠ .disabled → (s.src i).failures = 2 →
    (t.src i).failures = 3 ∧ (t.src i).reach = .unreachable ∧ (t.src i).code15 = true ∧
      (t.src i).reported = (s.src i).reported
  latches : (s.src i).state ≠ .disabled → (s.src i).failures = 2 → (s.cfg i).enabled = true →
    s.anyUnreachable = false → ∀ p, (t.latched p).getLsbD 2 = true
  opens : (s.src i).state = .quiet → (s.src i).failures = 2 → Opened s t i 0x8000
  merges : ∀ n, (s.src i).state = .opened → (s.src i).failures = 2 → s.notice i = some n → Notice.merges n →
    t.notice i = some { n with conds := n.conds ||| 0x8000 }
  waits : ∀ n, (s.src i).state = .opened → (s.src i).failures = 2 → s.notice i = some n → ¬ Notice.merges n →
    t.notices = s.notices ∧ (t.src i).arrears = (s.src i).arrears ||| (0x8000 &&& ~~~n.conds)
  closing : (s.src i).state = .closing → (s.src i).failures = 2 →
    t.notices = s.notices ∧ (t.src i).arrears = (s.src i).arrears ||| 0x8000

/-- What an outcome that is taken after CLEAR_ALL leaves of the runtime fields of its source (R19). -/
def SourceRt.overtaken (r : SourceRt) (good : Bool) : SourceRt :=
  if r.state = .disabled then r
  else if good then { r with reach := .reachable, failures := 0 }
  else { r with failures := r.failures + 1 }

/-! ### What a port holds -/

/-- Nothing of the part's is held in the name of p (R153). -/
structure HoldsNothing (s : State) (p : Port) : Prop where
  queue : s.queue p = []
  offers : ∀ i n, s.notice i = some n → n.offers.has p = false
  claims : ∀ i n, s.notice i = some n → n.state ≠ .claimed p
  polls : s.pollOutstanding p = false
  right : s.config.right ≠ some p
  recipient : ∀ t, s.config.store ≠ .writing t (some p)
  withdrawals : (s.eng p).withdrawals = []

/-! ### What a detach hands back -/

/-- Between s and t port p has been detached, and the notice table and the delivery unit have handed back what p held: a
notice offered to p or referenced in its queue has let p go, and waits on at its other ports where it has any, and else
has been walked with p in its tried set; a notice that p had claimed has let p go with its takeover flag set and has been
walked so; every other notice stands; and references that left p's queue have triggered a pass (R91, R127, R153, R83 to
R87; the pass as log 14 reads it). -/
structure HandedBack (s t : State) (p : Port) : Prop where
  waiting : ∀ i n, s.notice i = some n → n.state = .waiting → (n.offers.has p = true ∨ i ∈ s.queue p) →
    ∃ m, t.notice i = some m ∧ m.mark = n.mark ∧ m.conds = n.conds ∧ m.takeover = n.takeover ∧
      (n.offers.has p = true → m.offerTimers.get p = none) ∧ t.letGo p i m ∧
      ((∃ q, q ≠ p ∧ (i ∈ s.queue q ∨ n.offers.has q = true)) → m.state = .waiting ∧ m.tried = n.tried.insert p) ∧
      ((∀ q, q ≠ p → i ∉ s.queue q ∧ n.offers.has q = false) → WalkedAmong s t i (n.tried.insert p) m)
  claimed : ∀ i n, s.notice i = some n → n.state = .claimed p → (∀ q, i ∉ s.queue q) → n.offers = PortSet.empty →
    ∃ m, t.notice i = some m ∧ m.mark = n.mark ∧ m.conds = n.conds ∧ m.takeover = true ∧ m.serviceTimer = none ∧
      t.letGo p i m ∧ WalkedAmong s t i (n.tried.insert p) m
  kept : Settled s → ∀ i, (∀ n, s.notice i = some n → n.offers.has p = false ∧ n.state ≠ .claimed p) →
    i ∉ s.queue p → t.notice i = s.notice i
  pass : s.queue p ≠ [] → (s.delivery.passList = [] → t.delivery.passList = t.stranded) ∧
    (s.delivery.passList ≠ [] → t.delivery.passPending = true)

/-- Between s and t the wait of a pending link rate of port p has ended: r is in force where the transmitter of p was
between frames, and is due at its next moment between frames where it was not (R131). -/
def RateReleased (s t : State) (p : Port) (r : LinkRate) : Prop :=
  ((s.eng p).tx = .idle → (t.eng p).rate = r ∧ (t.eng p).ratePending = none ∧ (t.eng p).rx = .hunt) ∧
    ((s.eng p).tx ≠ .idle → (t.eng p).rate = (s.eng p).rate ∧ (t.eng p).ratePending = some ⟨r, 0⟩)

/-! ### Invariants -/

/-- The bid-failure run and the suspension flag (R27): the run is 0..4, the flag is set exactly while the run is 4, and no
bid round is in flight while it is set. -/
structure BidRunOk (s : State) : Prop where
  bound : s.bus.bidRun ≤ Config.suspendAt
  flag : s.bus.suspended = true ↔ s.bus.bidRun = Config.suspendAt
  noBid : s.bus.suspended = true → ∀ t, s.bus.state = .inFlight t → t.work ≠ .bid

/-- The characters of a frame so far, the last of which was not its CHECK: LEN is 0..16, and no more than LEN characters
follow it (R134, R135). -/
def unfinished : List Byte → Bool
  | _ :: len :: rest => decide (len.toNat ≤ 16) && decide (rest.length ≤ len.toNat)
  | _ => true

/-- The bounds of the port engines: a request queue of at most 4 frames (R136), error counts of at most 255 (R137), and
in RECEIVING an unfinished frame (R134). -/
structure LinkBounds (s : State) : Prop where
  requests : ∀ p, (s.eng p).requests.length ≤ Config.requestQueueSize
  parity : ∀ p, (s.eng p).errors.parity ≤ 255
  framing : ∀ p, (s.eng p).errors.framing ≤ 255
  check : ∀ p, (s.eng p).errors.check ≤ 255
  overrun : ∀ p, (s.eng p).errors.overrun ≤ 255
  assembled : ∀ p chars held, (s.eng p).rx = .receiving chars held → unfinished chars = true

/-- A record exists for a source exactly while it is OPEN (R3, R46), a source that is not OPEN or CLOSING has no arrears
(R15), no failure run exceeds 3 (R16), exactly the enabled sources are not DISABLED once the boot load is over (R3, R4,
R18), and until then no source has left its reset state (R18). -/
structure SourcesOk (s : State) : Prop where
  record : ∀ i, (s.notice i).isSome = true ↔ (s.src i).state = .opened
  arrears : ∀ i, (s.src i).state = .quiet ∨ (s.src i).state = .disabled → (s.src i).arrears = 0
  failures : ∀ i, (s.src i).failures ≤ 3
  enabled : s.stage ≠ .booting → ∀ i, (s.cfg i).enabled = true ↔ (s.src i).state ≠ .disabled
  booting : s.stage = .booting → ∀ i, (s.src i).state = .disabled ∧ (s.src i).arrears = 0

/-- Outside BOOTING the field bus is IDLE only when there is nothing to do: no clear, no poll and no scan waits, and FAT
is high or bidding is suspended (R42, R43). -/
def BusNeverIdles (s : State) : Prop :=
  s.stage ≠ .booting → s.bus.state = .idle →
    s.bus.clearList = [] ∧ s.bus.pollQueue = [] ∧ s.stage = .running ∧
      (s.bus.fatLow = true → s.bus.suspended = true)

/-- Through BOOTING the field bus is IDLE, and so its wires rest (R44). -/
def BusRestsInBooting (s : State) : Prop := s.stage = .booting → s.bus.state = .idle

/-- A port that is not ATTACHED or HELD holds nothing (R147, R153), any other has a window of 1..4 that its offers do not
exceed (R92, R93), in BOOTING every port is DISABLED, and after it exactly the enabled ports are not (R147, R149). -/
structure HoldingsOk (s : State) : Prop where
  off : ∀ p, (s.eng p).state.isOn = false → HoldsNothing s p
  window : ∀ p, (s.eng p).state.isOn = true →
    1 ≤ (s.eng p).state.window ∧ (s.eng p).state.window ≤ 4 ∧ s.offerCount p ≤ (s.eng p).state.window
  booting : s.stage = .booting → ∀ p, (s.eng p).state = .disabled
  enabled : s.stage ≠ .booting → ∀ p, (s.portCfg p).enabled = true ↔ (s.eng p).state ≠ .disabled

/-- Outside RUNNING no notice is offered or claimed and no timer runs (R92, R116). -/
def OffersOnlyInRunning (s : State) : Prop :=
  s.stage ≠ .running → ∀ i n, s.notice i = some n →
    n.offers = PortSet.empty ∧ (∀ p, n.state ≠ .claimed p) ∧ n.offerTimers = PerPort.all none ∧ n.serviceTimer = none

/-- The number of polls that a port has outstanding (R38). -/
def State.pollCount (s : State) (p : Port) : Nat :=
  (s.bus.pollQueue.filter (fun e => e.requesters.has p)).length +
    match s.bus.state with
    | .inFlight ⟨.poll e, _, _, _⟩ => boolNat (e.requesters.has p)
    | _ => 0

/-- The number of STORE responses that a port awaits (R179). -/
def State.storeCount (s : State) (p : Port) : Nat :=
  match s.config.store with
  | .writing _ (some q) => if q = p then 1 else 0
  | _ => 0

/-- A port has at most one poll outstanding, no poll entry is without a requester and no source has two (R38), and a
response list never grows beyond 6 entries (R142). -/
structure ResponsesOk (s : State) : Prop where
  polls : ∀ p, s.pollCount p ≤ 1
  bound : ∀ p, (s.eng p).responses.length + s.pollCount p + s.storeCount p ≤ 6
  requested : ∀ e ∈ s.bus.pollQueue, e.requesters.isEmpty = false
  once : (s.bus.pollQueue.map (fun e => e.src)).Nodup

/-- The ranges of R175, and the permutation of R74, in tables. -/
structure TablesOk (t : Tables) : Prop where
  route : ∀ i : Src, (t.sources.get i).route.ok = true
  mask : ∀ i : Src, CodeSet.has15 (t.sources.get i).mask = false
  polarity : ∀ i : Src, i.isDirect = false → (t.sources.get i).polarity = .activeLow
  order : t.order.length = 8 ∧ t.order.Nodup
  backlog : ∀ p, 1 ≤ (t.ports.get p).backlog.toNat ∧ (t.ports.get p).backlog.toNat ≤ 56
  window : 8 ≤ t.device.window.toNat
  filterCount : 1 ≤ t.device.filterCount.toNat ∧ t.device.filterCount.toNat ≤ 15

/-- The tables in force are in range, and so are those that a STORE is writing. -/
structure TablesInRange (s : State) : Prop where
  inForce : TablesOk s.config.tables
  stored : ∀ t d, s.config.store = .writing t d → TablesOk t

/-- The places of notices. The record of a WAITING notice has a reference or an offer, a DIRECTED one exactly one (R53);
a CLAIMED or STRANDED notice has neither (R54, R68); no port is twice among the references, offers, tried set and
claimant of a notice (R51); the stranded list holds exactly the STRANDED notices, each once and with an empty tried set
(R68), and every queue its references once each, within the backlog limit (R75). That the pass list holds only members of
the stranded list, and that a trigger is pending only while a pass runs, is the model's reading of R88 and R90: a notice
that ends leaves the pass list at once (log 13). -/
structure PlacesOk (s : State) : Prop where
  refs : ∀ p, ∀ i ∈ s.queue p, ∃ n, s.notice i = some n ∧ n.state = .waiting ∧ n.offers.has p = false ∧
    n.tried.has p = false
  waiting : ∀ i n, s.notice i = some n → n.state = .waiting → s.hasPlace i = true
  directed : ∀ i n, s.notice i = some n → n.mode = .directed → ∀ p q,
    (i ∈ s.queue p ∨ n.offers.has p = true) → (i ∈ s.queue q ∨ n.offers.has q = true) → p = q
  offered : ∀ i n p, s.notice i = some n → n.offers.has p = true → n.state = .waiting ∧ n.tried.has p = false
  claimed : ∀ i n p, s.notice i = some n → n.state = .claimed p → n.tried.has p = false
  strandedList : ∀ i, i ∈ s.stranded ↔ ∃ n, s.notice i = some n ∧ n.state = .stranded
  untried : ∀ i n, s.notice i = some n → n.state = .stranded → n.tried = PortSet.empty
  strandedOnce : s.stranded.Nodup
  passList : s.delivery.passList.Nodup ∧ ∀ i ∈ s.delivery.passList, i ∈ s.stranded
  passEnds : s.delivery.passPending = true → s.delivery.passList ≠ []
  queueOnce : ∀ p, (s.queue p).Nodup
  backlog : ∀ p, (s.queue p).length ≤ s.backlogLimit p
  sources : SourcesOk s
  booting : s.stage = .booting → ∀ p, s.queue p = []

/-- The orders. Every queue follows rank position and then opening order (R76), the stranded list follows opening order
(R68), and no living notice is younger than the next to open (R47); references designate living notices. -/
structure OrdersOk (s : State) : Prop where
  queues : ∀ p, (s.queue p).Pairwise (fun i j => keyBefore (s.queueKey j) (s.queueKey i) = false)
  stranded : s.stranded.Pairwise (fun i j => keyBefore (s.ageKey j) (s.ageKey i) = false)
  next : ∀ i n, s.notice i = some n → n.order < s.notices.nextOrder
  live : ∀ p, ∀ i ∈ s.queue p, (s.notice i).isSome = true
  strandedLive : ∀ i ∈ s.stranded, (s.notice i).isSome = true
  sources : SourcesOk s
  booting : s.stage = .booting → ∀ p, s.queue p = []

end Sys2Proof.Machine
end

