-- ==== Sys2Proof/Certificates/Slice0/Obligations.lean ====
section
/-! DEFINITION. The statements for the provers. -/

open Sys2Proof Sys2Proof.Machine

/-! ### The queue of commands -/

/-- A step takes the command at the front of the queue and is that command's meaning on the queue's rest; on an empty
queue the part idles (the model's own choice, log 3). Every command of the table completes, in every state, and none
touches the queue of waiting commands (logs 2 and 3). -/
def Obligations.StepRunsTheFrontCommand : Prop :=
  (∀ s : State,
     (∀ c rest, s.pending = c :: rest → step s = exec c { s with pending := rest }) ∧
       (s.pending = [] → step s = .next s)) ∧
  (∀ (c : Instr) (s : State), ∃ t, exec c s = .next t ∧ t.pending = s.pending)

/-! ### Start-up (chapter 11) -/

/-- FULL_RESET puts every state but the store image, the FAT input and the model's own fields at its reset value, and
those values are the ones that R18, R44, R67, R75, R90, R115, R133, R136 to R138, R141, R147, R163, R166, R170, R177,
R181 and R184 give; after it FCK is high and FDA released (R21, R44). The model's choices among these values: the tables
before the load (log 10), the FAT level (log 5), the acknowledge slot (log 23), the source state before the load (log
11), the transmitter (log 24), the link rate (log 27), and the content of the store image where a STORE was in flight
(log 34). -/
def Obligations.FullResetLeavesTheResetState : Prop :=
  (∀ s : State, exec .fullReset s = .next
    { State.reset with
      pending := s.pending
      free := s.free
      bus := { State.reset.bus with fatLow := s.bus.fatLow }
      config := { State.reset.config with image := s.config.image } }) ∧
  State.reset.stage = .booting ∧
  (∀ i, State.reset.src i = ⟨.disabled, .reachable, false, 0, 0, 0, 0⟩) ∧
  (∀ k, State.reset.line k = ⟨.inactive, 0, false⟩) ∧
  (∀ i, State.reset.notice i = none) ∧ State.reset.stranded = [] ∧
  State.reset.delivery.passList = [] ∧ State.reset.delivery.passPending = false ∧
  (∀ p, State.reset.queue p = [] ∧ State.reset.latched p = 0 ∧ State.reset.signalled p = 0 ∧
    State.reset.nreq p = false ∧
    State.reset.eng p = ⟨.disabled, .hunt, [], [], [], .idle, false, ⟨0, 0, 0, 0⟩, .r115200, none⟩) ∧
  State.reset.bus = ⟨.idle, [], [], 0, false, .fresh, 49, 0, false, .notGiven⟩ ∧
  State.reset.config.right = none ∧ State.reset.config.store = .idle ∧ State.reset.config.storeFault = false ∧
  (∀ (s : State) (heard : Heard) (h : Nat), ∃ t, exec .fullReset s = .next t ∧ t.bus.state = .idle ∧
    t.drive heard h = ⟨true, false⟩)

/-- The reset state meets every invariant stated below. -/
def Obligations.ResetStateMeetsTheInvariants : Prop :=
  BidRunOk State.reset ∧ BusNeverIdles State.reset ∧ LinkBounds State.reset ∧ SourcesOk State.reset ∧
    HoldingsOk State.reset ∧ OffersOnlyInRunning State.reset ∧ ResponsesOk State.reset ∧ TablesInRange State.reset ∧
    PlacesOk State.reset ∧ OrdersOk State.reset ∧ Settled State.reset ∧ BusRestsInBooting State.reset

/-- BOOT_LOAD_COMPLETE in BOOTING: the tables of a valid image, or the defaults with STORE_BLANK latched at every port,
are in force; every port is DETACHED or DISABLED by its entry, with its receiver in HUNT and nothing listed; every field
source is QUIET or DISABLED by its entry; an enabled direct line that is active or latched, and whose mask admits code
0, opens a notice, which is STRANDED since no port is ATTACHED or HELD (R84, R87); and the scan begins, or is over at
once where no field source is enabled (R185, R182, R18, R147, R166, R186). -/
def Obligations.BootLoadStartsTheScan : Prop :=
  ∀ (s : State) (fat : Bool), s.stage = .booting → s.bus.state = .idle →
    ∃ t, exec (.bootLoadComplete fat) s = .next t ∧
      (∀ T, s.config.image.load = some T → t.config.tables = T ∧ t.config.storeBlank = false) ∧
      (s.config.image.load = none → t.config.tables = defaultTables ∧ t.config.storeBlank = true ∧
        ∀ p, (t.latched p).getLsbD 4 = true) ∧
      t.config.storeFault = false ∧ t.config.image = s.config.image ∧ t.config.right = s.config.right ∧
      (∀ p, t.eng p = { PortEngine.reset with
        state := if (t.portCfg p).enabled then .detached else .disabled, rate := (t.portCfg p).rate }) ∧
      (∀ i : Src, i.isDirect = false → t.src i = { s.src i with
        state := if (t.cfg i).enabled then .quiet else .disabled }) ∧
      (∀ k : Fin 8, (t.cfg (Src.ofLine k)).enabled = false → (t.src (Src.ofLine k)).state = .disabled ∧
        t.line k = s.line k) ∧
      (∀ k : Fin 8, (t.cfg (Src.ofLine k)).enabled = true →
        ((s.line k).filtered = .active ∨ (s.line k).latch = true) →
        (t.line k).latch = true ∧ (t.src (Src.ofLine k)).reported = 1 ∧
          (((t.cfg (Src.ofLine k)).mask.getLsbD 0 = true ∧ (s.src (Src.ofLine k)).code15 = false) →
            (t.src (Src.ofLine k)).state = .opened ∧
              ∃ n, t.notice (Src.ofLine k) = some n ∧ n.mark = (s.src (Src.ofLine k)).openings + 1 ∧ n.conds = 1 ∧
                (PlacesOk s → n.state = .stranded ∧ n.tried = PortSet.empty ∧ Src.ofLine k ∈ t.stranded))) ∧
      ((∃ i : Src, i.isDirect = false ∧ (t.cfg i).enabled = true) → t.stage = .scanning ∧ t.bus.state ≠ .idle) ∧
      ((∀ i : Src, i.isDirect = false → (t.cfg i).enabled = false) → t.stage = .running ∧ t.bus.cursor = 49)

/-- Without a valid image the part starts with the default tables: every source DISABLED and no notice, every port
DETACHED, the stage RUNNING at once, STORE_BLANK present and latched at every port, so that W is 1 in the first frame of
each port (R190, R183, R166). -/
def Obligations.InvalidImageStartsWithDefaults : Prop :=
  ∀ (s : State) (fat : Bool), s.config.image.load = none →
    ∃ t, runs [.fullReset, .bootLoadComplete fat] s = some t ∧ t.stage = .running ∧
      t.config.tables = defaultTables ∧ (∀ i, t.notice i = none ∧ (t.src i).state = .disabled) ∧
      (∀ p, t.eng p = { PortEngine.reset with state := .detached } ∧ t.present p = 0x10 ∧ t.latched p = 0x10 ∧
        t.wFlag p = true ∧ t.eFlag p = false ∧ t.nreq p = false) ∧
      t.bus.state = (if fat then t.opening .bid else .idle)

/-- The tables that a STORE wrote and verified are, after full reset and the boot load, in force again, every field of
them (R180, R182, and the layouts of R146). Every entry in range survives its layout: reading the bytes that a
READ_ENTRY returns as the content of a WRITE_ENTRY gives the same entry, with every field at every value (R146, R173,
R175). The order of the entries in the image, encodeTables, is the model's choice (log 12). -/
def Obligations.StoredTablesSurviveReset : Prop :=
  (∀ (s : State) (T : Tables) (d : Option Port) (fat : Bool), s.config.store = .writing T d → TablesOk T →
     ∃ t, runs [.storeComplete (encodeTables T) (crc16 (encodeTables T)), .fullReset, .bootLoadComplete fat] s = some t ∧
       t.config.tables = T ∧ t.config.storeBlank = false ∧ t.config.storeFault = false) ∧
  (∀ T : Tables, TablesOk T →
     (∀ i : Src, decodeSource i (encodeSource (T.sources.get i)) = some (T.sources.get i)) ∧
     (∀ k : Fin 8, decodeClass (encodeClass (T.classes.get k)) = some (T.classes.get k)) ∧
     decodeOrder (encodeOrder T.order) = some T.order ∧
     (∀ p : Port, decodePort (encodePort (T.ports.get p)) = some (T.ports.get p)) ∧
     decodeDevice (encodeDevice T.device) = some T.device ∧
     decodeTables (encodeTables T) = some T)

/-- CLEAR_ALL: refused with NO_RIGHT at a port that does not hold the right; else every notice ends with a CLEARED
withdrawal to each port of its offer set and to its claimant, every source that is not DISABLED becomes QUIET with its
counts kept, the clear list and the poll queue empty with CANCELLED to every requester, OK is owed, and the scan begins
(R188, R189, R19, R45, R66). The scan queries every enabled direct line: the latch takes an ACTIVE level; a latch that
holds {0} reports it, which sets the reach and, where the mask admits code 0, opens a notice with the next mark, walked
on the queues as the lines before it have left them (R83 to R87); a latch that holds nothing leaves the line QUIET with
reach, reported set and opening count kept; a DISABLED line is passed over (R186, R8). -/
def Obligations.ClearAllEndsEveryNoticeAndRescans : Prop :=
  ∀ (s : State) (p : Port) (f : Frame) (rest : List Frame), Executes s p .clearAll f rest →
    (Settled s → s.config.right ≠ some p →
      exec (.clearAll p) s = .next (s.reply p { s.eng p with requests := rest } ⟨0x35, .noRight, []⟩)) ∧
    (PlacesOk s → s.config.right = some p → ∃ t, exec (.clearAll p) s = .next t ∧
      t.owes p ⟨0x35, .ok, []⟩ ∧
      (∀ i n q, s.notice i = some n → (n.offers.has q = true ∨ n.state = .claimed q) →
        t.announces q ⟨i, n.mark, .cleared⟩) ∧
      (∀ i : Src, i.isDirect = false → t.notice i = none ∧ i ∉ t.stranded ∧ (∀ q, i ∉ t.queue q) ∧
        t.src i = if (s.src i).state = .disabled then s.src i
          else { s.src i with state := .quiet, arrears := 0, code15 := false, failures := 0 }) ∧
      (∀ (k : Fin 8) (i : Src) (latch : Bool) (r : SourceRt), i = Src.ofLine k →
        latch = ((s.line k).latch || decide ((s.line k).filtered = .active)) →
        r = { s.src i with state := .quiet, arrears := 0, code15 := false, failures := 0 } →
        (t.notice i = none → i ∉ t.stranded ∧ ∀ q, i ∉ t.queue q) ∧
        ((s.src i).state = .disabled → t.src i = s.src i ∧ t.line k = s.line k ∧ t.notice i = none) ∧
        ((s.src i).state ≠ .disabled → t.line k = { s.line k with latch := latch } ∧
          (latch = false → t.src i = r ∧ t.notice i = none) ∧
          (latch = true → (s.cfg i).mask.getLsbD 0 = false →
            t.src i = { r with reported := 1, reach := .reachable } ∧ t.notice i = none) ∧
          (latch = true → (s.cfg i).mask.getLsbD 0 = true →
            t.src i = { r with
              reported := 1, reach := .reachable, state := .opened, openings := (s.src i).openings + 1 } ∧
            ∃ n, t.notice i = some n ∧ n.mark = (s.src i).openings + 1 ∧ n.conds = 1 ∧ n.cls = (s.cfg i).cls ∧
              n.mode = (s.cfg i).mode ∧ n.takeover = false ∧
              Walked s t i PortSet.empty (fun q =>
                ((List.finRange 8).filter (fun j => decide (j < k) && t.placedAt (Src.ofLine j) q)).length) n))) ∧
      (∀ e ∈ s.bus.pollQueue, ∀ q, e.requesters.has q = true → t.owes q ⟨0x23, .cancelled, [byteOf e.src.num]⟩) ∧
      (∀ g, s.bus.state = .inFlight g → t.stage = .scanning ∧ t.bus.cursor = 1 ∧ t.bus.attempts = 0 ∧
        (∀ e, g.work = .poll e →
          t.bus.state = .inFlight { g with work := .poll ⟨e.src, PortSet.empty⟩, afterClearAll := true } ∧
            ∀ q, e.requesters.has q = true → t.owes q ⟨0x23, .cancelled, [byteOf e.src.num]⟩) ∧
        ((∀ e, g.work ≠ .poll e) → t.bus.state = .inFlight { g with afterClearAll := true })) ∧
      ((∃ i : Src, i.isDirect = false ∧ (s.cfg i).enabled = true) → t.stage = .scanning) ∧
      t.bus.clearList = [] ∧ t.bus.pollQueue = [] ∧ t.bus.bidRun = s.bus.bidRun ∧
      t.bus.suspended = s.bus.suspended ∧ t.bus.prev = s.bus.prev ∧ t.config = s.config ∧
      (∀ q, (t.eng q).state = (s.eng q).state ∧ (t.eng q).errors = (s.eng q).errors ∧
        s.latched q &&& t.latched q = s.latched q))

/-! ### Direct lines and the time base (chapters 1 and 6) -/

/-- LINE_SAMPLE: every line's filter takes its sample by the polarity and the filter count in force, 4 and ACTIVE_LOW in
BOOTING; a line that becomes ACTIVE sets its latch in SCANNING and RUNNING if it is enabled; and every running timer of
every notice counts down by one, the notice else keeping its state (R6, R7, R116). Field sources, the bus, the
configuration and the stage stand. -/
def Obligations.LineSampleFiltersAndTicks : Prop :=
  ∀ (s : State) (levels : BitVec 8), SourcesOk s →
    ∃ t, exec (.lineSample levels) s = .next t ∧
      (∀ (k : Fin 8) (level : Level) (count : Nat),
        level = (if levels.getLsbD k.val = (decide (s.stage ≠ .booting ∧
          (s.cfg (Src.ofLine k)).polarity = .activeHigh)) then Level.active else Level.inactive) →
        count = (if s.stage = .booting then 4 else s.config.tables.device.filterCount.toNat) →
        (level = (s.line k).filtered → (t.line k).filtered = level ∧ (t.line k).stability = 0) ∧
        (level ≠ (s.line k).filtered → count ≤ (s.line k).stability + 1 →
          (t.line k).filtered = level ∧ (t.line k).stability = 0) ∧
        (level ≠ (s.line k).filtered → (s.line k).stability + 1 < count →
          (t.line k).filtered = (s.line k).filtered ∧ (t.line k).stability = (s.line k).stability + 1) ∧
        (t.line k).latch = ((s.line k).latch || decide (s.stage ≠ .booting ∧
          (s.src (Src.ofLine k)).state ≠ .disabled ∧ (s.line k).filtered = .inactive ∧
          (t.line k).filtered = .active))) ∧
      (∀ i n, s.notice i = some n → ∃ m, t.notice i = some m ∧ m.mark = n.mark ∧ m.state = n.state ∧
        m.tried = n.tried ∧ m.takeover = n.takeover ∧
        (∀ p, m.offerTimers.get p = (n.offerTimers.get p).map (fun x => x - 1)) ∧
        m.serviceTimer = n.serviceTimer.map (fun x => x - 1)) ∧
      (∀ i : Src, i.isDirect = false → t.src i = s.src i) ∧ (Settled s → LinksKept s t) ∧
      (∀ p, s.latched p &&& t.latched p = s.latched p) ∧ t.bus = s.bus ∧ t.config = s.config ∧ t.stage = s.stage

/-- LINE_SAMPLE of a line whose filtered level becomes ACTIVE, outside BOOTING and of an enabled line: {0} is reported,
and a QUIET line whose mask admits code 0 opens a notice {0}, which is walked with an empty tried set; to the notice of
an OPEN line the new conditions are joined while it is STRANDED or not yet shown, and go to the arrears else (R7, R10 to
R13, R83 to R87). -/
def Obligations.RisingLineReportsItsCondition : Prop :=
  ∀ (s : State) (levels : BitVec 8) (k : Fin 8), SourcesOk s → s.stage ≠ .booting →
    (s.src (Src.ofLine k)).state ≠ .disabled → (s.line k).filtered = .inactive →
    levels.getLsbD k.val = decide ((s.cfg (Src.ofLine k)).polarity = .activeHigh) →
    s.config.tables.device.filterCount.toNat ≤ (s.line k).stability + 1 →
    ∃ t, exec (.lineSample levels) s = .next t ∧
      (t.line k).filtered = .active ∧ (t.line k).latch = true ∧ (t.src (Src.ofLine k)).reported = 1 ∧
      (t.src (Src.ofLine k)).reach = .reachable ∧ (t.src (Src.ofLine k)).failures = 0 ∧
      ((s.src (Src.ofLine k)).state = .quiet → (s.src (Src.ofLine k)).code15 = false →
        ((s.cfg (Src.ofLine k)).mask.getLsbD 0 = true → Opened s t (Src.ofLine k) 1) ∧
        ((s.cfg (Src.ofLine k)).mask.getLsbD 0 = false →
          (t.src (Src.ofLine k)).state = .quiet ∧ t.notice (Src.ofLine k) = none)) ∧
      (∀ (n : Notice) (conds : CodeSet), (s.src (Src.ofLine k)).state = .opened → s.notice (Src.ofLine k) = some n →
        conds = s.newConds (Src.ofLine k) 1 →
        ∃ m, t.notice (Src.ofLine k) = some m ∧ m.mark = n.mark ∧
          (Notice.merges n → m.conds = n.conds ||| conds ∧
            (t.src (Src.ofLine k)).arrears = (s.src (Src.ofLine k)).arrears) ∧
          (¬ Notice.merges n → m.conds = n.conds ∧
            (t.src (Src.ofLine k)).arrears = (s.src (Src.ofLine k)).arrears ||| (conds &&& ~~~n.conds)))

/-! ### Reports and failed exchanges (chapter 1) -/

/-- BID_ROUND_END of a round won: the report, less code 15, arrives at the source whose number is the address, and its
new conditions are applied by the state of the source and of its notice; a notice that opens is walked with an empty
tried set (R26, R5, R10 to R13, R83 to R87). -/
def Obligations.WonRoundAppliesTheReport : Prop :=
  ∀ (s : State) (g : InFlight) (i : Src) (address : BitVec 6) (report conds : BitVec 16), Settled s →
    SourcesOk s → s.bus.state = .inFlight g → g.work = .bid → g.afterClearAll = false → i.isDirect = false →
    address.toNat = i.num → conds = s.newConds i (report &&& 0x7FFF) →
    ∃ t, exec (.bidRoundEnd address report (fieldCheck report)) s = .next t ∧ t.bus.bidRun = 0 ∧
      TouchesOnly s t i ∧ LinksKept s t ∧
      ((s.src i).state = .disabled → t.sources = s.sources ∧ t.notices = s.notices ∧ t.delivery = s.delivery) ∧
      ((s.src i).state ≠ .disabled → (t.src i).reported = report &&& 0x7FFF ∧ (t.src i).reach = .reachable ∧
        (t.src i).failures = 0 ∧ (t.src i).code15 = (s.src i).code15 ∧
        t.sources.lines = s.sources.lines) ∧
      ((s.src i).state = .quiet → conds ≠ 0 → Opened s t i conds ∧ (t.src i).arrears = (s.src i).arrears) ∧
      ((s.src i).state = .quiet → conds = 0 → (t.src i).state = .quiet ∧ t.notices = s.notices ∧
        t.delivery = s.delivery) ∧
      (∀ n, (s.src i).state = .opened → s.notice i = some n →
        (Notice.merges n → t.notice i = some { n with conds := n.conds ||| conds } ∧
          (t.src i).arrears = (s.src i).arrears ∧ t.delivery = s.delivery) ∧
        (¬ Notice.merges n → t.notices = s.notices ∧ t.delivery = s.delivery ∧
          (t.src i).arrears = (s.src i).arrears ||| (conds &&& ~~~n.conds))) ∧
      ((s.src i).state = .closing → (t.src i).state = .closing ∧ t.notices = s.notices ∧ t.delivery = s.delivery ∧
        (t.src i).arrears = (s.src i).arrears ||| conds)

/-- POLL_END without a good reply is a failed exchange: a DISABLED source keeps every field, a run of 0 or 1 gains 1, a
run of 3 stays, and the run going from 2 to 3 makes the source UNREACHABLE, holds code 15 and applies {15} as a report's
new conditions are applied, a notice that opens being walked (R83 to R87); UNREACHABLE latches at every port if no
enabled source had been UNREACHABLE (R16, R17, R163). -/
def Obligations.ThirdFailureMakesTheSourceUnreachable : Prop :=
  ∀ (s : State) (g : InFlight) (e : PollEntry) (reply : Option FieldReply), Settled s → SourcesOk s →
    s.bus.state = .inFlight g → g.work = .poll e → g.afterClearAll = false → failedReply g.window reply →
    ∃ t, exec (.pollEnd reply) s = .next t ∧ TouchesOnly s t e.src ∧
      (((s.src e.src).state = .disabled ∨ 3 ≤ (s.src e.src).failures) →
        t.sources = s.sources ∧ t.notices = s.notices ∧ t.delivery = s.delivery) ∧
      ((s.src e.src).state ≠ .disabled → (s.src e.src).failures < 2 →
        t.src e.src = { s.src e.src with failures := (s.src e.src).failures + 1 } ∧ t.notices = s.notices ∧
          t.delivery = s.delivery) ∧
      ((s.src e.src).state ≠ .disabled → (s.src e.src).failures = 2 →
        (t.src e.src).failures = 3 ∧ (t.src e.src).reach = .unreachable ∧ (t.src e.src).code15 = true ∧
        (t.src e.src).reported = (s.src e.src).reported ∧
        ((s.cfg e.src).enabled = true → s.anyUnreachable = false → ∀ p, (t.latched p).getLsbD 2 = true) ∧
        ((s.src e.src).state = .quiet → Opened s t e.src 0x8000) ∧
        (∀ n, (s.src e.src).state = .opened → s.notice e.src = some n →
          (Notice.merges n → t.notice e.src = some { n with conds := n.conds ||| 0x8000 }) ∧
          (¬ Notice.merges n → t.notices = s.notices ∧
            (t.src e.src).arrears = (s.src e.src).arrears ||| (0x8000 &&& ~~~n.conds))) ∧
        ((s.src e.src).state = .closing → t.notices = s.notices ∧
          (t.src e.src).arrears = (s.src e.src).arrears ||| 0x8000))

/-! ### The field bus (chapter 2) -/

/-- The opener of a bid round is 0101, and its slots are the opener, 6 for the address, and, unless the address reads
63, 16 for the report, 8 for the check and the acknowledge slot, which the part drives 0 to accept and releases to
refuse, as it releases the slots of the sources (R22, R25). When bidders work as R24 states, the address read is the
lowest address among them, and 63 when there is none; the round of the lowest bidder, with a good check, is accepted and
its report arrives. -/
def Obligations.LowestBidderIsHeard : Prop :=
  BusWork.bid.drivenSlots = [false, true, false, true] ∧ addressRead [] = 63 ∧
  (∀ bidders : List (BitVec 6), bidders ≠ [] →
    addressRead bidders ∈ bidders ∧ ∀ a ∈ bidders, (addressRead bidders).toNat ≤ a.toNat) ∧
  (∀ (s : State) (g : InFlight) (bidders : List (BitVec 6)) (i : Src) (report : BitVec 16),
    s.bus.state = .inFlight g → g.work = .bid → g.afterClearAll = false → (s.src i).state ≠ .disabled →
    i.isDirect = false → BitVec.ofNat 6 i.num ∈ bidders → (∀ a ∈ bidders, i.num ≤ a.toNat) →
    ∃ t, exec (.bidRoundEnd (addressRead bidders) report (fieldCheck report)) s = .next t ∧
      t.bus.ack = .accepted ∧ (t.src i).reported = report &&& 0x7FFF) ∧
  (∀ (g : InFlight) (address : BitVec 6) (report : BitVec 16) (check : BitVec 8), g.work = .bid →
    g.slots (.round address report check) =
      [some false, some true, some false, some true] ++ List.replicate 6 none ++
        (if address = 63 then [] else List.replicate 24 none ++
          [some (!decide (1 ≤ address.toNat ∧ address.toNat ≤ 48 ∧ check = fieldCheck report))]))

/-- BID_ROUND_END: the outcome follows from the address read and the check, with the acknowledge slot of R25; WON sets
the bid-failure run to 0, every other outcome adds 1 to it, the run reaching 4 suspends bidding and latches
FIELD_SUSPENDED at every port, and STRAY and EMPTY rounds give the source unit nothing (R25 to R27). A GARBLED round is
a failed exchange for the source whose number is the address (R26, R16, R17, R83 to R87). -/
def Obligations.BidRoundOutcomes : Prop :=
  ∀ (s : State) (g : InFlight) (address : BitVec 6) (report : BitVec 16) (check : BitVec 8) (good : Bool),
    Settled s → s.bus.state = .inFlight g → g.work = .bid → s.bus.suspended = false → s.bus.bidRun < 4 →
    good = decide (1 ≤ address.toNat ∧ address.toNat ≤ 48 ∧ check = fieldCheck report) →
    ∃ t, exec (.bidRoundEnd address report check) s = .next t ∧
      t.bus = { s.bus with
        state := .gap g.rate
        prev := .bid
        bidRun := if good then 0 else s.bus.bidRun + 1
        suspended := !good && decide (s.bus.bidRun = 3)
        ack := if address = 63 then .notGiven else if good then .accepted else .refused } ∧
      (good = false → s.bus.bidRun = 3 → ∀ p, (t.latched p).getLsbD 3 = true ∧ (t.present p).getLsbD 3 = true) ∧
      ((address.toNat = 0 ∨ 49 ≤ address.toNat) → t.sources = s.sources ∧ t.notices = s.notices ∧
        t.delivery = s.delivery ∧ t.engines = s.engines) ∧
      (∀ i : Src, SourcesOk s → g.afterClearAll = false → i.isDirect = false → address.toNat = i.num →
        check ≠ fieldCheck report → FailedExchange s t i ∧ LinksKept s t)

/-- GAP_END in RUNNING: the bus is IDLE, FAT is sampled, and the arbiter chooses a bid round, the head clear, the head
poll or nothing by R43, opening at the field rate and reply window in force; nothing else changes (R42, R43, R32, R35,
R39). FAT_LOW in RUNNING: on an IDLE bus with no work waiting and bidding not suspended a bid round opens, and while
bidding is suspended none. While a transaction or its gap runs, in SCANNING and in RUNNING and whatever waits, FAT_LOW
opens nothing, and in BOOTING it changes nothing (R42, R43, R27, R20). The wires: in the IDLE state and in a gap FCK is
high and FDA released; the opening edge pulls FDA low while FCK is high; in each slot FCK is low for the first half and
high for the second, with FDA low where the part drives 0; after the last slot the wires rest. A gap is 4 field bit
times (R20, R21). -/
def Obligations.ArbiterChoosesTheNextTransaction : Prop :=
  (∀ (s : State) (r : FieldRate) (fat bid : Bool), Settled s → s.bus.state = .gap r → s.stage = .running →
     bid = decide (fat = true ∧ s.bus.suspended = false ∧
       (s.bus.prev ≠ .bid ∨ (s.bus.clearList = [] ∧ s.bus.pollQueue = []))) →
     (bid = true → exec (.gapEnd fat) s = .next (s.setBus { s.bus with fatLow := fat, state := s.opening .bid })) ∧
     (∀ c rest, bid = false → s.bus.clearList = c :: rest → exec (.gapEnd fat) s = .next
       (s.setBus { s.bus with fatLow := fat, clearList := rest, state := s.opening (.clear c false) })) ∧
     (∀ e rest, bid = false → s.bus.clearList = [] → s.bus.pollQueue = e :: rest → exec (.gapEnd fat) s = .next
       (s.setBus { s.bus with fatLow := fat, pollQueue := rest, state := s.opening (.poll e) })) ∧
     (bid = false → s.bus.clearList = [] → s.bus.pollQueue = [] →
       exec (.gapEnd fat) s = .next (s.setBus { s.bus with fatLow := fat, state := .idle }))) ∧
  (∀ s : State, Settled s → s.stage = .running → s.bus.clearList = [] → s.bus.pollQueue = [] →
     (s.bus.state = .idle → s.bus.suspended = false →
       exec .fatLow s = .next (s.setBus { s.bus with fatLow := true, state := s.opening .bid })) ∧
     ((s.bus.state ≠ .idle ∨ s.bus.suspended = true) →
       exec .fatLow s = .next (s.setBus { s.bus with fatLow := true }))) ∧
  (∀ s : State, Settled s →
     (s.stage ≠ .booting → s.bus.state ≠ .idle → exec .fatLow s = .next (s.setBus { s.bus with fatLow := true })) ∧
     (s.stage = .scanning → BusNeverIdles s → exec .fatLow s = .next (s.setBus { s.bus with fatLow := true })) ∧
     (s.stage = .booting → exec .fatLow s = .next s)) ∧
  (∀ (s : State) (heard : Heard) (h : Nat), (s.bus.state = .idle ∨ ∃ r, s.bus.state = .gap r) →
     s.drive heard h = ⟨true, false⟩) ∧
  (∀ (s : State) (g : InFlight) (heard : Heard), s.bus.state = .inFlight g →
     s.drive heard 0 = ⟨true, true⟩ ∧
     (∀ (k : Nat) (bit : Option Bool), (g.slots heard)[k]? = some bit →
       s.drive heard (2 * k + 1) = ⟨false, decide (bit = some false)⟩ ∧
       s.drive heard (2 * k + 2) = ⟨true, decide (bit = some false)⟩) ∧
     (∀ h, 2 * (g.slots heard).length < h → s.drive heard h = ⟨true, false⟩)) ∧
  (∀ r : FieldRate, r.gapTime = 4 * r.bitTime) ∧
  [FieldRate.k62_5, .k125, .k250, .k500].map FieldRate.bitTime = [16, 8, 4, 2]

/-- GAP_END in SCANNING: the cursor moves to the first enabled field source at or above it, whose scan step opens unless
a bid round has its turn; past source 48 the stage becomes RUNNING (R41, R43, R187). SCAN_STEP_END: a good reply is a
report arrival, its new conditions applied by the state of the source and of its notice, and moves the cursor on; a
failure is a failed exchange, the third in a row raising code 15, and is tried up to three times before the cursor moves
on (R41, R31, R10 to R13, R16, R17, R83 to R87). -/
def Obligations.ScanVisitsTheEnabledSources : Prop :=
  (∀ (s : State) (r : FieldRate) (fat : Bool), Settled s → s.bus.state = .gap r → s.stage = .scanning →
     s.bus.clearList = [] → s.bus.pollQueue = [] →
     (∀ i : Src, i.isDirect = false → s.bus.cursor ≤ i.num → (s.cfg i).enabled = true →
       (∀ j : Src, s.bus.cursor ≤ j.num → j.num < i.num → (s.cfg j).enabled = false) →
       exec (.gapEnd fat) s = .next (s.setBus { s.bus with
         fatLow := fat
         cursor := i.num
         state := if fat = true ∧ s.bus.suspended = false ∧ s.bus.prev ≠ PrevKind.bid then s.opening BusWork.bid
           else s.opening (.scan i) })) ∧
     ((∀ j : Src, j.isDirect = false → s.bus.cursor ≤ j.num → (s.cfg j).enabled = false) →
       ∃ t, exec (.gapEnd fat) s = .next t ∧ t.stage = .running ∧ t.bus = { s.bus with
         fatLow := fat
         cursor := 49
         state := if fat = true ∧ s.bus.suspended = false then s.opening BusWork.bid else BusState.idle })) ∧
  (∀ (s : State) (g : InFlight) (i : Src), s.bus.state = .inFlight g → g.work = .scan i → g.afterClearAll = false →
     (∀ (lead : Nat) (report : BitVec 16), lead ≤ g.window.toNat →
       ∃ t, exec (.scanStepEnd (some ⟨lead, report, fieldCheck report⟩)) s = .next t ∧
         t.bus = { s.bus with state := .gap g.rate, prev := .work, ack := .accepted, cursor := s.bus.cursor + 1,
                              attempts := 0 } ∧
         (Settled s → SourcesOk s → ReportArrives s t i (report &&& 0x7FFF) ∧ LinksKept s t) ∧
         ((s.src i).state ≠ .disabled → (t.src i).reported = report &&& 0x7FFF ∧ (t.src i).reach = .reachable ∧
           (t.src i).failures = 0)) ∧
     (∀ reply, failedReply g.window reply →
       ∃ t, exec (.scanStepEnd reply) s = .next t ∧
         t.bus = { s.bus with
           state := .gap g.rate
           prev := .work
           ack := failedAck g.window reply
           cursor := if s.bus.attempts < 2 then s.bus.cursor else s.bus.cursor + 1
           attempts := if s.bus.attempts < 2 then s.bus.attempts + 1 else 0 } ∧
         (Settled s → SourcesOk s → FailedExchange s t i ∧ LinksKept s t) ∧
         ((s.src i).state ≠ .disabled → (s.src i).failures < 3 → (t.src i).failures = (s.src i).failures + 1)))

/-- The slots of a poll and of a scan step: the opener 0110 and the 6-bit address, most significant bit first; the reply
window up to the lead slot, 16 report slots, 8 check slots and the acknowledge slot, or the whole window without one;
the part releases FDA in every slot of the source (R22, R29, R31). POLL_END: a reply within the window and with a good
check arrives as a report, its new conditions applied by the state of the source and of its notice, and is answered OK
with the source, the set less code 15 and the reach at every port of the requester set; any other end is a failed
exchange and is answered NO_REPLY there (R29, R31, R39, R10 to R13, R16, R17, R83 to R87). -/
def Obligations.PollIsAnsweredAtEveryRequester : Prop :=
  (∀ (u : InFlight) (i : Src), (u.work = .scan i ∨ ∃ requesters, u.work = .poll ⟨i, requesters⟩) →
    ∃ sent, sent = [some false, some true, some true, some false] ++
        [5, 4, 3, 2, 1, 0].map (fun k => some (i.num.testBit k)) ∧
      u.slots (.reply none) = sent ++ List.replicate u.window.toNat none ∧
      (∀ x : FieldReply, u.window.toNat < x.lead →
        u.slots (.reply (some x)) = sent ++ List.replicate u.window.toNat none) ∧
      (∀ x : FieldReply, x.lead ≤ u.window.toNat → u.slots (.reply (some x)) =
        sent ++ List.replicate (x.lead + 16 + 8) none ++ [some (decide (x.check ≠ fieldCheck x.report))])) ∧
  (∀ (s : State) (g : InFlight) (e : PollEntry), s.bus.state = .inFlight g → g.work = .poll e →
    g.afterClearAll = false →
    (∀ (lead : Nat) (report : BitVec 16), lead ≤ g.window.toNat →
      ∃ t, exec (.pollEnd (some ⟨lead, report, fieldCheck report⟩)) s = .next t ∧
        t.bus = { s.bus with state := .gap g.rate, prev := .work, ack := .accepted } ∧
        ((s.src e.src).state ≠ .disabled → (t.src e.src).reported = report &&& 0x7FFF) ∧
        (Settled s → SourcesOk s → ReportArrives s t e.src (report &&& 0x7FFF)) ∧
        (∀ q, (t.eng q).state = (s.eng q).state ∧ (t.eng q).requests = (s.eng q).requests) ∧
        (∀ q, e.requesters.has q = true → t.owes q
          ⟨0x23, .ok, [byteOf e.src.num] ++ le16 (report &&& 0x7FFF) ++ [byteOf (t.src e.src).reach.code]⟩)) ∧
    (∀ reply, failedReply g.window reply →
      ∃ t, exec (.pollEnd reply) s = .next t ∧
        t.bus = { s.bus with state := .gap g.rate, prev := .work, ack := failedAck g.window reply } ∧
        (Settled s → SourcesOk s → FailedExchange s t e.src) ∧
        (∀ q, (t.eng q).state = (s.eng q).state ∧ (t.eng q).requests = (s.eng q).requests) ∧
        (∀ q, e.requesters.has q = true → t.owes q ⟨0x23, .noReply, [byteOf e.src.num]⟩)))

/-- The slots of a clear: the opener 0011, the 6-bit address, the clear set with the slot of code 15 driven 0, and the
check over it, each most significant bit first; then as a poll (R22, R30). CLEAR_END with a good reply, of a clear that
is not discarded, for a CLOSING source: the reply is taken as a report, and clear completion opens the next notice with
the masked reply, the arrears and code 15 if held, which is walked, or leaves the source QUIET; the arrears are empty
(R36, R60, R62, R64, R83 to R87). -/
def Obligations.ClearReplyCompletesTheClear : Prop :=
  (∀ (u : InFlight) (c : ClearEntry) (discarded : Bool), u.work = .clear c discarded →
    ∃ sent, sent = [some false, some false, some true, some true] ++
        [5, 4, 3, 2, 1, 0].map (fun k => some (c.src.num.testBit k)) ++
        some false :: [14, 13, 12, 11, 10, 9, 8, 7, 6, 5, 4, 3, 2, 1, 0].map (fun k => some (c.codes.getLsbD k)) ++
        [7, 6, 5, 4, 3, 2, 1, 0].map (fun k => some ((fieldCheck (c.codes &&& 0x7FFF)).getLsbD k)) ∧
      u.slots (.reply none) = sent ++ List.replicate u.window.toNat none ∧
      (∀ x : FieldReply, x.lead ≤ u.window.toNat → u.slots (.reply (some x)) =
        sent ++ List.replicate (x.lead + 16 + 8) none ++ [some (decide (x.check ≠ fieldCheck x.report))])) ∧
  (∀ (s : State) (g : InFlight) (e : ClearEntry) (lead : Nat) (report conds : BitVec 16), Settled s → SourcesOk s →
    s.bus.state = .inFlight g → g.work = .clear e false → g.afterClearAll = false →
    (s.src e.src).state = .closing → lead ≤ g.window.toNat →
    conds = s.newConds e.src (report &&& 0x7FFF) ||| (s.src e.src).arrears →
    ∃ t, exec (.clearEnd (some ⟨lead, report, fieldCheck report⟩)) s = .next t ∧
      t.bus = { s.bus with state := .gap g.rate, prev := .work, ack := .accepted } ∧
      (t.src e.src).reported = report &&& 0x7FFF ∧ (t.src e.src).reach = .reachable ∧ (t.src e.src).failures = 0 ∧
      (t.src e.src).arrears = 0 ∧ (t.src e.src).code15 = (s.src e.src).code15 ∧
      TouchesOnly s t e.src ∧ LinksKept s t ∧
      (conds ≠ 0 → Opened s t e.src conds) ∧
      (conds = 0 → (t.src e.src).state = .quiet ∧ t.notices = s.notices ∧ t.delivery = s.delivery))

/-- CLEAR_END of a failed clear, not discarded, for a CLOSING source: a failed exchange, the third in a row making the
source UNREACHABLE, holding code 15 in the arrears and latching UNREACHABLE at every port if no enabled source had been
so; then the entry is appended again with one attempt more, or after the third attempt the clear is given up and
completes with an empty report, and the notice that its arrears or code 15 opens is walked (R37, R62, R60, R16, R17,
R163, R83 to R87). -/
def Obligations.FailedClearIsRetriedThenGivenUp : Prop :=
  ∀ (s : State) (g : InFlight) (e : ClearEntry) (reply : Option FieldReply) (arrears conds : CodeSet), Settled s →
    SourcesOk s → s.bus.state = .inFlight g → g.work = .clear e false → g.afterClearAll = false →
    (s.src e.src).state = .closing → failedReply g.window reply →
    arrears = (s.src e.src).arrears ||| (if (s.src e.src).failures = 2 then 0x8000 else 0) →
    conds = arrears ||| (if (s.src e.src).code15 then 0x8000 else 0) →
    ∃ t, exec (.clearEnd reply) s = .next t ∧
      (t.src e.src).failures = (if (s.src e.src).failures < 3 then (s.src e.src).failures + 1
        else (s.src e.src).failures) ∧
      ((s.src e.src).failures = 2 → (t.src e.src).reach = .unreachable ∧ (t.src e.src).code15 = true ∧
        ((s.cfg e.src).enabled = true → s.anyUnreachable = false → ∀ p, (t.latched p).getLsbD 2 = true)) ∧
      ((s.src e.src).failures ≠ 2 → (t.src e.src).reach = (s.src e.src).reach ∧
        (t.src e.src).code15 = (s.src e.src).code15) ∧
      (t.src e.src).reported = (s.src e.src).reported ∧ TouchesOnly s t e.src ∧ LinksKept s t ∧
      (e.attempts < 2 → FailedExchange s t e.src ∧ (t.src e.src).state = .closing ∧
        (t.src e.src).arrears = arrears ∧ t.notices = s.notices ∧
        t.bus = { s.bus with state := .gap g.rate, prev := .work, ack := failedAck g.window reply,
                             clearList := s.bus.clearList ++ [{ e with attempts := e.attempts + 1 }] }) ∧
      (2 ≤ e.attempts → (t.src e.src).arrears = 0 ∧
        t.bus = { s.bus with state := .gap g.rate, prev := .work, ack := failedAck g.window reply } ∧
        (conds ≠ 0 → Opened s t e.src conds) ∧
        (conds = 0 → (t.src e.src).state = .quiet ∧ t.notices = s.notices))

/-- CLEAR_END of a clear whose source was disabled while it was in flight is handed to nobody; after CLEAR_ALL a clear
is neither retried nor completed, a good reply sets reach and failure run alone, and a failure adds 1 to the run (R35,
R19, R45); that a clear that is both discarded and overtaken is handed to nobody is the model's choice (log 32).
POLL_END and BID_ROUND_END of a poll and of a bid round in flight when CLEAR_ALL was taken: the outcome reaches the
source in the same way, no response is made, no notice opens or merges, and the bid round still sets the bid-failure run
(R19, R45, R26). -/
def Obligations.OvertakenClearsAreNotCompleted : Prop :=
  (∀ (s : State) (g : InFlight) (e : ClearEntry) (discarded : Bool), Settled s →
    s.bus.state = .inFlight g → g.work = .clear e discarded →
    (∀ (lead : Nat) (report : BitVec 16) (bus : FieldBus), lead ≤ g.window.toNat →
      bus = { s.bus with state := .gap g.rate, prev := .work, ack := .accepted } →
      (discarded = true →
        exec (.clearEnd (some ⟨lead, report, fieldCheck report⟩)) s = .next (s.setBus bus)) ∧
      (discarded = false → g.afterClearAll = true → (s.src e.src).state ≠ .disabled →
        exec (.clearEnd (some ⟨lead, report, fieldCheck report⟩)) s = .next
          ((s.setBus bus).setSrc e.src { s.src e.src with reach := .reachable, failures := 0 }))) ∧
    (∀ (reply : Option FieldReply) (bus : FieldBus), failedReply g.window reply →
      bus = { s.bus with state := .gap g.rate, prev := .work, ack := failedAck g.window reply } →
      (discarded = true → exec (.clearEnd reply) s = .next (s.setBus bus)) ∧
      (discarded = false → g.afterClearAll = true → (s.src e.src).state ≠ .disabled → (s.src e.src).failures < 3 →
        exec (.clearEnd reply) s = .next
          ((s.setBus bus).setSrc e.src { s.src e.src with failures := (s.src e.src).failures + 1 })))) ∧
  (∀ (u : State) (k : InFlight) (i : Src), Settled u → u.bus.state = .inFlight k → k.afterClearAll = true →
    (k.work = .poll ⟨i, PortSet.empty⟩ →
      (∀ (lead : Nat) (report : BitVec 16), lead ≤ k.window.toNat →
        exec (.pollEnd (some ⟨lead, report, fieldCheck report⟩)) u = .next
          ((u.setBus { u.bus with state := .gap k.rate, prev := .work, ack := .accepted }).setSrc i
            ((u.src i).overtaken true))) ∧
      (∀ reply, failedReply k.window reply → (u.src i).failures < 3 → exec (.pollEnd reply) u = .next
        ((u.setBus { u.bus with state := .gap k.rate, prev := .work, ack := failedAck k.window reply }).setSrc i
          ((u.src i).overtaken false)))) ∧
    (∀ (address : BitVec 6) (report : BitVec 16), k.work = .bid → i.isDirect = false → address.toNat = i.num →
      exec (.bidRoundEnd address report (fieldCheck report)) u = .next
        ((u.setBus { u.bus with state := .gap k.rate, prev := .bid, ack := .accepted, bidRun := 0 }).setSrc i
          ((u.src i).overtaken true)) ∧
      (∀ check, check ≠ fieldCheck report → (u.src i).failures < 3 →
        ∃ t, exec (.bidRoundEnd address report check) u = .next t ∧
          t.sources = (u.setSrc i ((u.src i).overtaken false)).sources ∧ t.notices = u.notices ∧
          t.delivery = u.delivery ∧ t.engines = u.engines ∧ t.bus.ack = .refused ∧ t.bus.prev = .bid ∧
          (u.bus.bidRun < 4 → t.bus.bidRun = u.bus.bidRun + 1))))

/-! ### Delivery, offers and expiry (chapters 4 to 6) -/

/-- PASS_WALK: the head of the pass list leaves it and is walked. A port can take the notice where it is not in the
tried set, is ATTACHED or HELD, has a class filter that holds the class, neither references the notice nor is offered
it, and holds fewer references than its backlog limit. A DIRECTED notice gets one reference, at the first such port of
its route; a SHARED notice one at every such port of it; it is then WAITING and off the stranded list. A notice that no
port can take stays STRANDED. A pass whose list ends with a trigger pending is followed by a new one (R82, R84, R85,
R87, R88, R90). -/
def Obligations.PassWalksTheOldestStrandedNotice : Prop :=
  ∀ (s : State) (i : Src) (rest : List Src) (n : Notice) (takes : Port → Bool), Settled s →
    (∀ p, takes p = true ↔
      n.tried.has p = false ∧ ((∃ w, (s.eng p).state = .attached w) ∨ ∃ w, (s.eng p).state = .held w) ∧
        (s.portCfg p).classFilter.getLsbD n.cls.val = true ∧ i ∉ s.queue p ∧ n.offers.has p = false ∧
        (s.queue p).length < (s.portCfg p).backlog.toNat) →
    s.delivery.passList = i :: rest → i ∈ s.stranded → s.notice i = some n → n.state = .stranded →
    (∀ p, i ∉ s.queue p) → n.offers = PortSet.empty → (s.cfg i).route.ok = true →
    ∃ t, exec .passWalk s = .next t ∧ TouchesOnly s t i ∧ LinksKept s t ∧ t.sources = s.sources ∧ t.bus = s.bus ∧
      ((∀ p ∈ (s.cfg i).route.ports, takes p = false) →
        t.notices = s.notices ∧ t.delivery.queues = s.delivery.queues ∧
        (rest ≠ [] → t.delivery.passList = rest) ∧
        (rest = [] → t.delivery.passList = if s.delivery.passPending then s.stranded else [])) ∧
      ((∃ p ∈ (s.cfg i).route.ports, takes p = true) →
        t.stranded = s.stranded.filter (fun j => j != i) ∧
        (∃ m, t.notice i = some m ∧ m.state = .waiting ∧ m.mark = n.mark ∧ m.conds = n.conds ∧ m.order = n.order ∧
          (n.mode = .shared → ∀ p, (i ∈ t.queue p ∨ m.offers.has p = true) ↔
            (p ∈ (s.cfg i).route.ports ∧ takes p = true)) ∧
          (n.mode = .directed → ∀ p, (i ∈ t.queue p ∨ m.offers.has p = true) ↔
            (s.cfg i).route.ports.find? takes = some p)))

/-- OFFER_EXPIRY of an offer whose timer stands at 0: the port leaves the offer set and joins the tried set, EXPIRED is
queued to it, and the notice is walked, with the port skipped as tried, when it is left with no offer and no reference;
else it stays WAITING at its other ports (R119, R120, R83 to R87). -/
def Obligations.OfferExpiryHandsTheNoticeOn : Prop :=
  ∀ (s : State) (p : Port) (i : Src) (n : Notice), s.notice i = some n → n.state = .waiting →
    n.offers.has p = true → n.offerTimers.get p = some 0 → i ∉ s.queue p →
    ∃ t, exec (.offerExpiry p i) s = .next t ∧ t.announces p ⟨i, n.mark, .expired⟩ ∧
      (∃ m, t.notice i = some m ∧ m.offers.has p = false ∧ i ∉ t.queue p ∧ m.mark = n.mark ∧ m.conds = n.conds ∧
        (n.shown = true → m.shown = true) ∧ m.takeover = n.takeover ∧ m.offerTimers.get p = none ∧ t.letGo p i m ∧
        (Settled s → ((∃ q, i ∈ s.queue q) ∨ ∃ q, q ≠ p ∧ n.offers.has q = true) →
          m = { n with offers := n.offers.erase p, tried := n.tried.insert p,
                       offerTimers := n.offerTimers.set p none } ∧
          t.delivery = s.delivery ∧ t.stranded = s.stranded) ∧
        ((∀ q, i ∉ s.queue q) → (∀ q, q ≠ p → n.offers.has q = false) →
          WalkedAmong s t i (n.tried.insert p) m)) ∧
      (Settled s → TouchesOnly s t i ∧ LinksKept s t) ∧
      t.sources = s.sources ∧ t.bus = s.bus ∧ t.config = s.config ∧ t.stage = s.stage

/-- SERVICE_EXPIRY of a claim whose timer stands at 0: the claim is revoked, the claimant joins the tried set, the
takeover flag is set, EXPIRED is queued to the former claimant, TAKEOVER latches there, and the notice is walked, with
the former claimant skipped as tried (R124, R126, R83 to R87). -/
def Obligations.ServiceExpiryRevokesTheClaim : Prop :=
  ∀ (s : State) (p : Port) (i : Src) (n : Notice), s.notice i = some n → n.state = .claimed p →
    n.serviceTimer = some 0 → i ∉ s.queue p → n.offers.has p = false →
    ∃ t, exec (.serviceExpiry i) s = .next t ∧ t.announces p ⟨i, n.mark, .expired⟩ ∧
      (t.latched p).getLsbD 6 = true ∧
      (∃ m, t.notice i = some m ∧ m.mark = n.mark ∧ m.conds = n.conds ∧ m.takeover = true ∧
        m.serviceTimer = none ∧ (n.shown = true → m.shown = true) ∧ m.order = n.order ∧ t.letGo p i m ∧
        i ∉ t.queue p ∧ m.offers.has p = false ∧
        ((∀ q, i ∉ s.queue q) → n.offers = PortSet.empty → WalkedAmong s t i (n.tried.insert p) m)) ∧
      (Settled s → TouchesOnly s t i ∧ LinksKept s t) ∧
      t.sources = s.sources ∧ t.bus = s.bus ∧ t.config = s.config ∧ t.stage = s.stage

/-- FRAME_SENT, the choice of the next frame: the head response with LOST as it stands, which it clears; else the head
withdrawal; else, where the conditions of R94 hold, a NOTICE by taking the head of the delivery queue; else nothing. The
flags E and W are those of the moment: whether a latched code is in the E map and in the W map (R143, R144, R138, R94,
R96, R169). The bytes of a frame: HEAD with the class, E, W and LOST, LEN, the payload of its layout, and the CHECK over
them (R132, R144, R146). The signalled set of a frame that begins: the latched codes in the E map or the W map where
auto-clear is on and the frame carries E or W, else none (R170). -/
def Obligations.TransmitterChoosesTheNextFrame : Prop :=
  (∀ (s : State) (p : Port), (s.eFlag p = true ↔ s.latched p &&& (s.portCfg p).eMap ≠ 0) ∧
    (s.wFlag p = true ↔ s.latched p &&& (s.portCfg p).wMap ≠ 0)) ∧
  (∀ (f : TxFrame) (cls : Nat) (payload front : List Byte),
    ((∃ r, f.body = .response r ∧ cls = 1 ∧ payload = [r.kind, r.status.code] ++ r.data) ∨
      (∃ n, f.body = .notice n ∧ cls = 2 ∧ payload = [byteOf n.src.num] ++ le16 n.mark ++ [byteOf n.cls.val] ++
        le16 n.conds ++ [n.tag, byteOf ((if n.shared then 1 else 0) + (if n.takeover then 2 else 0))]) ∨
      (∃ w, f.body = .withdrawn w ∧ cls = 3 ∧ payload = [byteOf w.src.num] ++ le16 w.mark ++
        [match w.reason with | .taken => (0 : Byte) | .expired => 1 | .disabled => 2 | .cleared => 3])) →
    front = [byteOf (64 * cls + (if f.e then 32 else 0) + (if f.w then 16 else 0) + (if f.lost then 8 else 0)),
      byteOf payload.length] ++ payload →
    f.bytes = front ++ [crc8 front]) ∧
  [Status.ok, .okAutoclosed, .notReady, .notAttached, .badArg, .unknown, .busy, .noRight, .notOffered, .taken, .tooLate,
    .notOwner, .noReply, .cancelled, .storeFault].map Status.code =
    [0x00, 0x01, 0x10, 0x11, 0x12, 0x13, 0x14, 0x15, 0x20, 0x21, 0x22, 0x23, 0x30, 0x31, 0x32] ∧
  ∀ (s : State) (p : Port) (f : TxFrame), Settled s → (s.eng p).tx = .sending f → (s.eng p).state ≠ .disabled →
    ∃ t, exec (.frameSent p) s = .next t ∧ t.sources = s.sources ∧ t.bus = s.bus ∧ t.config = s.config ∧
      t.stage = s.stage ∧ t.stranded = s.stranded ∧ (∀ q, q ≠ p → t.eng q = s.eng q ∧ t.queue q = s.queue q) ∧
      (t.eng p).state = (s.eng p).state ∧ (t.eng p).requests = (s.eng p).requests ∧
      (t.eng p).errors = (s.eng p).errors ∧
      ((t.eng p).tx ≠ .idle → t.signalled p =
        if (s.portCfg p).autoClear = true ∧ (t.eFlag p = true ∨ t.wFlag p = true) then
          t.latched p &&& ((s.portCfg p).eMap ||| (s.portCfg p).wMap)
        else 0) ∧
      (∀ r rest, (s.eng p).responses = r :: rest →
        (t.eng p).tx = .sending ⟨t.eFlag p, t.wFlag p, (s.eng p).lost, .response r⟩ ∧
        (t.eng p).responses = rest ∧ (t.eng p).lost = false ∧ (t.eng p).withdrawals = (s.eng p).withdrawals ∧
        t.queue p = s.queue p) ∧
      (∀ w rest, (s.eng p).responses = [] → (s.eng p).withdrawals = w :: rest →
        (t.eng p).tx = .sending ⟨t.eFlag p, t.wFlag p, false, .withdrawn w⟩ ∧
        (t.eng p).withdrawals = rest ∧ (t.eng p).lost = (s.eng p).lost ∧ t.queue p = s.queue p) ∧
      (∀ i rest n w, (s.eng p).responses = [] → (s.eng p).withdrawals = [] → s.stage = .running →
        (s.eng p).state = .attached w → s.offerCount p < w → s.queue p = i :: rest → i ∉ rest →
        s.notice i = some n → (∀ info, f.body = .notice info → info.src ≠ i) →
        (t.eng p).tx = .sending ⟨t.eFlag p, t.wFlag p, false,
          .notice ⟨i, n.mark, n.cls, n.conds, (s.cfg i).tag, decide (n.mode = .shared), n.takeover⟩⟩ ∧
        t.queue p = rest ∧ t.notice i = some { n with offers := n.offers.insert p, shown := true } ∧
        (t.eng p).lost = (s.eng p).lost) ∧
      ((s.eng p).responses = [] → (s.eng p).withdrawals = [] →
        (s.stage ≠ .running ∨ (∀ w, (s.eng p).state = .attached w → w ≤ s.offerCount p) ∨ s.queue p = []) →
        (t.eng p).tx = .idle ∧ t.queue p = s.queue p ∧ (t.eng p).lost = (s.eng p).lost ∧ t.signalled p = 0)

/-- FRAME_SENT, the end of the frame: a NOTICE whose notice is still offered to the port starts its offer timer with the
port's offer limit, unless that is 0; under auto-clear the signalled codes that are not present leave the latched set,
and of a frame that was cut off nothing counts as sent (R97, R117, R170). -/
def Obligations.FrameEndStartsTheTimerAndAutoClears : Prop :=
  ∀ (s : State) (p : Port),
    (∀ f, (s.eng p).tx = .sending f →
      ∃ t, exec (.frameSent p) s = .next t ∧
        t.latched p = s.latched p &&& ~~~(s.signalled p &&& ~~~s.present p) ∧
        (∀ q, q ≠ p → t.latched q = s.latched q) ∧
        (∀ info n, f.body = .notice info → s.notice info.src = some n →
          (n.mark = info.mark → n.offers.has p = true → (s.portCfg p).offerLimit ≠ 0 →
            ∃ m, t.notice info.src = some m ∧ m.mark = n.mark ∧ m.state = n.state ∧
              m.offerTimers = n.offerTimers.set p (some (s.portCfg p).offerLimit.toNat)) ∧
          ((n.mark ≠ info.mark ∨ n.offers.has p = false ∨ (s.portCfg p).offerLimit = 0) →
            ∃ m, t.notice info.src = some m ∧ m.mark = n.mark ∧ m.offerTimers = n.offerTimers))) ∧
    ((s.eng p).tx = .cutOff →
      ∃ t, exec (.frameSent p) s = .next t ∧ (∀ q, t.latched q = s.latched q) ∧
        (∀ i n, s.notice i = some n → ∃ m, t.notice i = some m ∧ m.offerTimers = n.offerTimers))

/-! ### Master links (chapter 7) -/

/-- LINK_CHARACTER: the characters of a request frame of at most 16 payload bytes, received one after the other between
frames, put exactly that frame at the tail of the request queue while it holds fewer than 4, and count an overrun, with
LOST and LINK_FAULT, while it holds 4; the receiver is between frames again (R130, R132, R134, R136, R138). A character
is 11 bit times long: the start bit at space, the data bits from the least significant on, the parity bit and the stop
bit; all space says that the 11 bits are at space. The part sends each byte of a frame with odd parity and the stop bit
at mark, one character after the other, and its line is at mark after the frame and while it has none (R130). -/
def Obligations.GoodFramesJoinTheRequestQueue : Prop :=
  (∀ c : LinkChar, (charLine c = [false, c.data.getLsbD 0, c.data.getLsbD 1, c.data.getLsbD 2, c.data.getLsbD 3,
      c.data.getLsbD 4, c.data.getLsbD 5, c.data.getLsbD 6, c.data.getLsbD 7, c.parity, c.stop]) ∧
    (allSpace c = true ↔ charLine c = List.replicate 11 false)) ∧
  (∀ b : Byte, (goodChar b).data = b ∧ (goodChar b).stop = true ∧
    ((charLine (goodChar b)).take 10).count true % 2 = 1) ∧
  (∀ (f : TxFrame) (k j : Nat) (b : Byte), f.bytes[k]? = some b → j < 11 →
    (Transmitter.sending f).level (11 * k + j) = (charLine (goodChar b))[j]?) ∧
  (∀ (f : TxFrame) (n : Nat), 11 * f.bytes.length ≤ n → (Transmitter.sending f).level n = some true) ∧
  (∀ n, Transmitter.idle.level n = some true) ∧
  [LinkRate.r38400, .r115200, .r460800, .r921600].map LinkRate.charTime = [2865, 955, 239, 119] ∧
  ∀ (s : State) (p : Port) (f : Frame), s.stage ≠ .booting → (s.eng p).state ≠ .disabled →
    (s.eng p).rx = .receiving [] false → f.payload.length ≤ 16 →
    ((s.eng p).requests.length < 4 →
      runs ((Frame.bytes f).map (fun b => .linkCharacter p (goodChar b))) s =
        some (s.setEng p { s.eng p with requests := (s.eng p).requests ++ [f] })) ∧
    (4 ≤ (s.eng p).requests.length →
      runs ((Frame.bytes f).map (fun b => .linkCharacter p (goodChar b))) s =
        some (((s.setEng p { s.eng p with
          lost := true
          errors := { (s.eng p).errors with
            overrun := if (s.eng p).errors.overrun < 255 then (s.eng p).errors.overrun + 1
              else (s.eng p).errors.overrun } }).setLatched p (s.latched p ||| 0x80)).setSignalled p
                (s.signalled p &&& 0x7F)))

/-- LINK_CHARACTER, FRAME_IDLE_TIMEOUT and LINE_RETURN_TO_MARK, the failures of R135: a character with a stop bit at
space counts as framing whatever its parity, one with even parity as parity, a LEN above 16 as framing, a CHECK that
differs as check, the idle gap inside a frame and the end of a held all-space character as framing. Each discards the
frame, sets LOST, latches LINK_FAULT and puts the receiver in HUNT. LINK_CHARACTER and HUNT_END: in HUNT, in BOOTING and
at a DISABLED port a character changes nothing; HUNT ends with a receiver between frames; an all-space character is held
unjudged; an error count at 255 stays (R133, R130, R137, R139). -/
def Obligations.ReceiverJudgesCharacters : Prop :=
  (∀ (s : State) (p : Port) (chars : List Byte) (c : Instr) (errors : ErrorCounts), s.stage ≠ .booting →
     (s.eng p).state ≠ .disabled →
     ((∃ ch : LinkChar, c = .linkCharacter p ch ∧ (s.eng p).rx = .receiving chars false ∧ ch.stop = false ∧
         (ch.data ≠ 0 ∨ ch.parity = true) ∧
         errors = { (s.eng p).errors with framing := countUp (s.eng p).errors.framing }) ∨
       (∃ ch : LinkChar, c = .linkCharacter p ch ∧ (s.eng p).rx = .receiving chars false ∧ ch.stop = true ∧
         oddParity ch = false ∧
         errors = { (s.eng p).errors with parity := countUp (s.eng p).errors.parity }) ∨
       (∃ len : Byte, c = .linkCharacter p (goodChar len) ∧ (s.eng p).rx = .receiving chars false ∧
         chars.length = 1 ∧ 16 < len.toNat ∧
         errors = { (s.eng p).errors with framing := countUp (s.eng p).errors.framing }) ∨
       (∃ (f : Frame) (check : Byte), c = .linkCharacter p (goodChar check) ∧
         (s.eng p).rx = .receiving chars false ∧ chars = f.head :: byteOf f.payload.length :: f.payload ∧
         f.payload.length ≤ 16 ∧ check ≠ crc8 chars ∧
         errors = { (s.eng p).errors with check := countUp (s.eng p).errors.check }) ∨
       (c = .frameIdleTimeout p ∧ (s.eng p).rx = .receiving chars false ∧ chars ≠ [] ∧
         errors = { (s.eng p).errors with framing := countUp (s.eng p).errors.framing }) ∨
       (c = .lineReturnToMark p ∧ (s.eng p).rx = .receiving chars true ∧
         errors = { (s.eng p).errors with framing := countUp (s.eng p).errors.framing })) →
     exec c s = .next
       (((s.setEng p { s.eng p with rx := .hunt, lost := true, errors := errors }).setLatched p
         (s.latched p ||| 0x80)).setSignalled p (s.signalled p &&& 0x7F))) ∧
  ((∀ (s : State) (p : Port) (c : LinkChar),
     (s.stage = .booting ∨ (s.eng p).state = .disabled ∨ (s.eng p).rx = .hunt) →
       exec (.linkCharacter p c) s = .next s) ∧
   (∀ (s : State) (p : Port), s.stage ≠ .booting → (s.eng p).state ≠ .disabled → (s.eng p).rx = .hunt →
     exec (.huntEnd p) s = .next (s.setEng p { s.eng p with rx := .receiving [] false })) ∧
   (∀ (s : State) (p : Port) (chars : List Byte), s.stage ≠ .booting → (s.eng p).state ≠ .disabled →
     (s.eng p).rx = .receiving chars false →
     exec (.linkCharacter p ⟨0, false, false⟩) s =
       .next (s.setEng p { s.eng p with rx := .receiving chars true })) ∧
   countUp 255 = 255 ∧ ∀ n, n < 255 → countUp n = n + 1)

/-- BREAK: the receiver is in HUNT, the lists are empty, LOST is clear, a frame in transmission is cut off, the error
counts and the latched codes are kept, and the port is DETACHED and holds nothing: its offers, its claims, with the
takeover flag, and the references of its queue are handed back, and a notice left with no place is walked with the port
skipped as tried (R140, R153, R127, R91, R83 to R87). -/
def Obligations.BreakDetachesThePort : Prop :=
  ∀ (s : State) (p : Port), Settled s → s.stage ≠ .booting → (s.eng p).state ≠ .disabled → HoldingsOk s →
    ∃ t, exec (.linkBreak p) s = .next t ∧ (t.eng p).state = .detached ∧ (t.eng p).rx = .hunt ∧
      (t.eng p).requests = [] ∧ (t.eng p).responses = [] ∧ (t.eng p).withdrawals = [] ∧ (t.eng p).lost = false ∧
      (t.eng p).errors = (s.eng p).errors ∧ t.signalled p = 0 ∧ s.latched p &&& t.latched p = s.latched p ∧
      (∀ f, (s.eng p).tx = .sending f → (t.eng p).tx = .cutOff) ∧
      HoldsNothing t p ∧ HandedBack s t p ∧ t.nreq p = false ∧ t.config.tables = s.config.tables ∧
      t.config.image = s.config.image ∧ t.sources = s.sources ∧ t.stage = s.stage ∧
      (∀ q, q ≠ p → (t.eng q).state = (s.eng q).state ∧ (t.eng q).rx = (s.eng q).rx ∧
        (t.eng q).requests = (s.eng q).requests ∧ (t.eng q).errors = (s.eng q).errors)

/-! ### Requests and port states (chapter 8) -/

/-- The decoding checks 2 to 5 refuse a frame exactly as the tables of R146, R156 and R157 say, in their order, and
check 1 names exactly the 18 request kinds. -/
def Obligations.DecodingChecksFollowTheTables : Prop :=
  (∀ (s : State) (p : Port) (f : Frame), ∀ r ∈ requestRows,
    r.kind.head = r.head ∧ s.decodeCheck p r.kind f = r.refusal s p f) ∧
  (∀ h : Byte, (ReqKind.ofHead h).isNone = true ↔ ∀ r ∈ requestRows, r.head ≠ h)

/-- Every request command: a frame that its decoding checks refuse leaves the queue and is answered with the refusing
status and no data, and an unknown HEAD (UNKNOWN_REQUEST) is answered UNKNOWN; nothing else changes. While the port may
not execute, or has no frame waiting, no command of it changes anything (R142, R155, R156). -/
def Obligations.RefusedRequestsChangeNothing : Prop :=
  ∀ (s : State) (p : Port), Settled s →
    (∀ (c : Instr) (k : ReqKind) (f : Frame) (rest : List Frame) (st : Status), c.request = some (p, k) →
      s.mayExecute p = true → (s.eng p).requests = f :: rest → f.head = k.head → c.fits s f = true →
      s.decodeCheck p k f = some st →
      exec c s = .next (s.reply p { s.eng p with requests := rest } ⟨f.head, st, []⟩)) ∧
    (∀ (f : Frame) (rest : List Frame), s.mayExecute p = true → (s.eng p).requests = f :: rest →
      ReqKind.ofHead f.head = none →
      exec (.unknownRequest p) s =
        .next (s.reply p { s.eng p with requests := rest } ⟨f.head, .unknown, []⟩)) ∧
    (∀ (c : Instr) (k : ReqKind), (c.request = some (p, k) ∨ c = .unknownRequest p) →
      (s.stage = .booting ∨ (s.eng p).state = .disabled ∨ 4 ≤ (s.eng p).responses.length ∨
        (s.eng p).requests = []) →
      exec c s = .next s)

/-- ATTACH: from DETACHED the port is ATTACHED with the window and a pass is triggered; at an ATTACHED or HELD port the
window takes the new value unless it is below the offer count, which is BAD_ARG (R150, R93). -/
def Obligations.AttachSetsTheWindow : Prop :=
  ∀ (s : State) (p : Port) (f : Frame) (rest : List Frame), Settled s → Executes s p .attach f rest →
    1 ≤ (f.byte 0).toNat ∧ (f.byte 0).toNat ≤ 4 ∧
    ((s.eng p).state = .detached →
      exec (.attach p) s = .next (s.triggerPass.reply p
        { s.eng p with requests := rest, state := .attached (f.byte 0).toNat } ⟨0x10, .ok, []⟩)) ∧
    (∀ w, (s.eng p).state = .held w → s.offerCount p ≤ (f.byte 0).toNat →
      exec (.attach p) s = .next (s.reply p
        { s.eng p with requests := rest, state := .held (f.byte 0).toNat } ⟨0x10, .ok, []⟩)) ∧
    (∀ w, (s.eng p).state = .attached w → s.offerCount p ≤ (f.byte 0).toNat →
      exec (.attach p) s = .next (s.reply p
        { s.eng p with requests := rest, state := .attached (f.byte 0).toNat } ⟨0x10, .ok, []⟩)) ∧
    ((s.eng p).state ≠ .detached → (f.byte 0).toNat < s.offerCount p →
      exec (.attach p) s = .next (s.reply p { s.eng p with requests := rest } ⟨0x10, .badArg, []⟩))

/-- HOLD and RESUME: HOLD makes an ATTACHED port HELD and leaves a HELD one; RESUME makes a HELD port ATTACHED and
triggers a pass, and leaves an ATTACHED one; each is answered OK, and window, offers, claims and queue stand (R152). The
request line of a port is asserted exactly while the port is ATTACHED or HELD and is offered a notice or has a latched
code in its E map (R171). -/
def Obligations.HoldAndResumeMoveThePort : Prop :=
  (∀ (s : State) (p : Port), s.nreq p = true ↔
    ((∃ w, (s.eng p).state = .attached w) ∨ ∃ w, (s.eng p).state = .held w) ∧
      ((∃ i n, s.notice i = some n ∧ n.offers.has p = true) ∨ s.latched p &&& (s.portCfg p).eMap ≠ 0)) ∧
  ∀ (s : State) (p : Port) (f : Frame) (rest : List Frame) (w : Nat), Settled s →
    (Executes s p .hold f rest → ((s.eng p).state = .attached w ∨ (s.eng p).state = .held w) →
      exec (.hold p) s = .next
        (s.reply p { s.eng p with requests := rest, state := .held w } ⟨0x12, .ok, []⟩)) ∧
    (Executes s p .resume f rest → (s.eng p).state = .held w →
      exec (.resume p) s = .next
        (s.triggerPass.reply p { s.eng p with requests := rest, state := .attached w } ⟨0x13, .ok, []⟩)) ∧
    (Executes s p .resume f rest → (s.eng p).state = .attached w →
      exec (.resume p) s = .next (s.reply p { s.eng p with requests := rest } ⟨0x13, .ok, []⟩))

/-- DETACH: the port is DETACHED and holds nothing, its lists are empty but for the OK to the DETACH, its counts and its
latched codes are kept; a notice it had offered, or that its queue referenced, has let it go, and one it had claimed
carries the takeover flag besides; a notice left with no place is walked with the port skipped as tried (R151, R153,
R127, R91, R83 to R87). -/
def Obligations.DetachHandsEverythingBack : Prop :=
  ∀ (s : State) (p : Port) (f : Frame) (rest : List Frame), Settled s → Executes s p .detach f rest →
    ∃ t, exec (.detach p) s = .next t ∧ t.owes p ⟨0x11, .ok, []⟩ ∧ (t.eng p).state = .detached ∧
      HoldsNothing t p ∧ (t.eng p).requests = [] ∧ (t.eng p).responses.length ≤ 1 ∧
      (t.eng p).errors = (s.eng p).errors ∧ s.latched p &&& t.latched p = s.latched p ∧
      HandedBack s t p ∧
      t.sources = s.sources ∧ t.config.tables = s.config.tables ∧ t.config.image = s.config.image ∧
      t.stage = s.stage ∧
      (∀ q, q ≠ p → (t.eng q).state = (s.eng q).state ∧ (t.eng q).rx = (s.eng q).rx ∧
        (t.eng q).requests = (s.eng q).requests ∧ (t.eng q).errors = (s.eng q).errors)

/-! ### CLAIM, RELEASE and CLOSE (chapters 3 and 5) -/

/-- CLAIM that makes no claim: TOO_LATE, TAKEN with the claimant, NOT_OFFERED, and the repeat of a claimant answered OK
with the conditions, each with the pair as named and none changing the notice (R101, R104 to R106, R55). -/
def Obligations.RefusedAndRepeatedClaims : Prop :=
  ∀ (s : State) (p : Port) (f : Frame) (rest : List Frame) (i : Src), Settled s → Executes s p .claim f rest →
    Src.ofNum (f.byte 0).toNat = some i →
    (((s.notice i).all (fun n => n.mark != f.mark)) = true →
      exec (.claim p) s = .next (s.reply p { s.eng p with requests := rest } ⟨0x20, .tooLate, f.payload⟩)) ∧
    (∀ n, s.notice i = some n → n.mark = f.mark →
      (∀ q, n.state = .claimed q → q ≠ p → exec (.claim p) s = .next
        (s.reply p { s.eng p with requests := rest } ⟨0x20, .taken, f.payload ++ [byteOf q.index]⟩)) ∧
      (n.state = .claimed p → exec (.claim p) s = .next
        (s.reply p { s.eng p with requests := rest } ⟨0x20, .ok, f.payload ++ le16 n.conds⟩)) ∧
      ((n.state = .stranded ∨ (n.state = .waiting ∧ n.offers.has p = false)) → exec (.claim p) s = .next
        (s.reply p { s.eng p with requests := rest } ⟨0x20, .notOffered, f.payload⟩)))

/-- CLAIM of an offered notice, close mode MANUAL: the notice is CLAIMED by the port, every offer and its timer ends,
every other port of the offer set is told TAKEN, every reference leaves, the service timer starts with the limit unless
that is 0, and OK carries the conditions; no other notice changes (R103, R106, R122). -/
def Obligations.ClaimTakesAnOfferedNotice : Prop :=
  ∀ (s : State) (p : Port) (f : Frame) (rest : List Frame) (i : Src) (n : Notice), Settled s →
    Executes s p .claim f rest → Src.ofNum (f.byte 0).toNat = some i → s.notice i = some n → n.mark = f.mark →
    n.state = .waiting → n.offers.has p = true → (s.clsCfg n.cls).closeMode = .manual →
    ∃ t, exec (.claim p) s = .next t ∧
      t.notice i = some { n with
        state := .claimed p
        offers := PortSet.empty
        offerTimers := PerPort.all none
        serviceTimer := if (s.clsCfg n.cls).serviceLimit = 0 then none
          else some (s.clsCfg n.cls).serviceLimit.toNat } ∧
      t.owes p ⟨0x20, .ok, f.payload ++ le16 n.conds⟩ ∧
      (∀ q, q ≠ p → n.offers.has q = true → t.announces q ⟨i, n.mark, .taken⟩) ∧
      (∀ q, t.queue q = (s.queue q).filter (fun j => j != i)) ∧
      (∀ j, j ≠ i → t.notice j = s.notice j) ∧ t.stranded = s.stranded ∧
      (∀ q, q ≠ p → n.offers.has q = false → t.eng q = s.eng q) ∧
      t.sources = s.sources ∧ t.bus = s.bus ∧ t.config = s.config ∧ t.stage = s.stage ∧
      (∀ q, t.latched q = s.latched q)

/-- CLAIM of an offered notice of a field source, close mode AUTO: the notice ends with every code of it serviced, the
other ports of the offer set are told TAKEN, the source is CLOSING, its clear joins the clear list, and OK_AUTOCLOSED
carries the conditions; code 15 is dropped where the source is REACHABLE and kept in the arrears where not (R61, R58,
R59). Of the notice of a direct line the clear completes at once, as at a CLOSE: the latch takes the filtered level,
which is the report, and the line opens again or is QUIET; the bus is not used (R61, R63, R9, R60, R83 to R87). -/
def Obligations.AutoCloseEndsTheNoticeAtTheClaim : Prop :=
  (∀ (s : State) (p : Port) (f : Frame) (rest : List Frame) (i : Src) (n : Notice), Settled s →
    Executes s p .claim f rest → Src.ofNum (f.byte 0).toNat = some i → i.isDirect = false → s.notice i = some n →
    n.mark = f.mark → n.state = .waiting → n.offers.has p = true → (s.clsCfg n.cls).closeMode = .auto →
    ∃ t, exec (.claim p) s = .next t ∧ t.notice i = none ∧ (∀ q, i ∉ t.queue q) ∧ i ∉ t.stranded ∧
      t.owes p ⟨0x20, .okAutoclosed, f.payload ++ le16 n.conds⟩ ∧
      (∀ q, q ≠ p → n.offers.has q = true → t.announces q ⟨i, n.mark, .taken⟩) ∧
      t.src i = { s.src i with
        state := .closing
        code15 := if n.conds.getLsbD 15 ∧ (s.src i).reach = .reachable then false else (s.src i).code15
        arrears := (s.src i).arrears |||
          (if n.conds.getLsbD 15 ∧ (s.src i).reach = .unreachable then 0x8000 else 0) } ∧
      (s.bus.state ≠ .idle →
        t.bus = { s.bus with clearList := s.bus.clearList ++ [⟨i, n.conds &&& 0x7FFF, 0⟩] }) ∧
      (s.bus.state = .idle → s.stage = .running → s.bus.clearList = [] →
        (s.bus.fatLow = false ∨ s.bus.suspended = true) →
        t.bus = { s.bus with state := s.opening (.clear ⟨i, n.conds &&& 0x7FFF, 0⟩ false) }) ∧
      TouchesOnly s t i ∧ (∀ q, q ≠ p → n.offers.has q = false → t.eng q = s.eng q)) ∧
  (∀ (s : State) (p : Port) (f : Frame) (rest : List Frame) (k : Fin 8) (i : Src) (n : Notice) (active : Bool)
    (conds : CodeSet), Settled s → BusNeverIdles s → Executes s p .claim f rest →
    Src.ofNum (f.byte 0).toNat = some i → i = Src.ofLine k → s.notice i = some n → n.mark = f.mark →
    n.state = .waiting → n.offers.has p = true → (s.clsCfg n.cls).closeMode = .auto → n.conds.getLsbD 15 = false →
    (s.src i).code15 = false → active = decide ((s.line k).filtered = .active) →
    conds = ((if active then 1 else 0) &&& (s.cfg i).mask) ||| (s.src i).arrears →
    ∃ t, exec (.claim p) s = .next t ∧ t.owes p ⟨0x20, .okAutoclosed, f.payload ++ le16 n.conds⟩ ∧
      (∀ q, q ≠ p → n.offers.has q = true → t.announces q ⟨i, n.mark, .taken⟩) ∧ t.bus = s.bus ∧
      t.line k = { s.line k with latch := active } ∧ (t.src i).reported = (if active then 1 else 0) ∧
      (t.src i).arrears = 0 ∧ (conds ≠ 0 → Opened s t i conds) ∧
      (conds = 0 → (t.src i).state = .quiet ∧ t.notice i = none ∧ (∀ q, i ∉ t.queue q) ∧ i ∉ t.stranded) ∧
      TouchesOnly s t i ∧
      (∀ q, q ≠ p → t.eng q = { s.eng q with withdrawals := (t.eng q).withdrawals, tx := (t.eng q).tx }))

/-- RELEASE: TOO_LATE where the pair names no notice, NOT_OWNER where the port is not its claimant, an offer to it
included; from the claimant the claim ends with its timer, the port joins the tried set, the notice is WAITING and is
walked with the port skipped as tried, and OK is made with the pair; conditions, mark, takeover flag and opening order
are kept (R109, R110, R83 to R87). -/
def Obligations.ReleaseReturnsTheNotice : Prop :=
  ∀ (s : State) (p : Port) (f : Frame) (rest : List Frame) (i : Src), Settled s → Executes s p .release f rest →
    Src.ofNum (f.byte 0).toNat = some i →
    (((s.notice i).all (fun n => n.mark != f.mark)) = true →
      exec (.release p) s = .next (s.reply p { s.eng p with requests := rest } ⟨0x21, .tooLate, f.payload⟩)) ∧
    (∀ n, s.notice i = some n → n.mark = f.mark → n.state ≠ .claimed p →
      exec (.release p) s = .next (s.reply p { s.eng p with requests := rest } ⟨0x21, .notOwner, f.payload⟩)) ∧
    (∀ n, s.notice i = some n → n.mark = f.mark → n.state = .claimed p → i ∉ s.queue p → n.offers.has p = false →
      ∃ t, exec (.release p) s = .next t ∧ t.owes p ⟨0x21, .ok, f.payload⟩ ∧
        (∃ m, t.notice i = some m ∧ m.mark = n.mark ∧ m.conds = n.conds ∧ m.takeover = n.takeover ∧
          m.order = n.order ∧ (n.shown = true → m.shown = true) ∧ m.serviceTimer = none ∧ t.letGo p i m ∧
          i ∉ t.queue p ∧ m.offers.has p = false ∧
          ((∀ q, i ∉ s.queue q) → n.offers = PortSet.empty → WalkedAmong s t i (n.tried.insert p) m)) ∧
        TouchesOnly s t i ∧ (∀ q, q ≠ p → (t.eng q).withdrawals = (s.eng q).withdrawals) ∧
        t.sources = s.sources ∧ t.bus = s.bus ∧ t.config = s.config ∧ t.stage = s.stage)

/-- CLOSE: TOO_LATE where the pair names no notice and NOT_OWNER where the port is not its claimant. From the claimant
of a field source's notice, which no port is offered (R54): the notice ends, the arrears gain the codes not serviced,
code 15 named is dropped where the source is REACHABLE and joins the arrears where not, the source is CLOSING, the clear
with the codes serviced less 15 joins the clear list or, on an IDLE bus with no bid wanted, is sent, and OK is made at
once (R57 to R59). -/
def Obligations.CloseEndsTheNoticeAndClearsTheSource : Prop :=
  ∀ (s : State) (p : Port) (f : Frame) (rest : List Frame) (i : Src), Settled s → Executes s p .close f rest →
    Src.ofNum (f.byte 0).toNat = some i →
    (((s.notice i).all (fun n => n.mark != f.mark)) = true →
      exec (.close p) s = .next
        (s.reply p { s.eng p with requests := rest } ⟨0x22, .tooLate, f.payload.take 3⟩)) ∧
    (∀ n, s.notice i = some n → n.mark = f.mark → n.state ≠ .claimed p →
      exec (.close p) s = .next
        (s.reply p { s.eng p with requests := rest } ⟨0x22, .notOwner, f.payload.take 3⟩)) ∧
    (∀ (n : Notice) (serviced : CodeSet), s.notice i = some n → n.mark = f.mark → n.state = .claimed p →
      n.offers = PortSet.empty → i.isDirect = false → serviced = f.clearSet &&& n.conds →
      ∃ t, exec (.close p) s = .next t ∧ t.notice i = none ∧ t.owes p ⟨0x22, .ok, f.payload.take 3⟩ ∧
        (∀ q, i ∉ t.queue q) ∧ i ∉ t.stranded ∧
        t.src i = { s.src i with
          state := .closing
          code15 := if serviced.getLsbD 15 ∧ (s.src i).reach = .reachable then false else (s.src i).code15
          arrears := (s.src i).arrears ||| (n.conds &&& ~~~serviced) |||
            (if serviced.getLsbD 15 ∧ (s.src i).reach = .unreachable then 0x8000 else 0) } ∧
        (s.bus.state ≠ .idle →
          t.bus = { s.bus with clearList := s.bus.clearList ++ [⟨i, serviced &&& 0x7FFF, 0⟩] }) ∧
        (s.bus.state = .idle → s.stage = .running → s.bus.clearList = [] →
          (s.bus.fatLow = false ∨ s.bus.suspended = true) →
          t.bus = { s.bus with state := s.opening (.clear ⟨i, serviced &&& 0x7FFF, 0⟩ false) }) ∧
        TouchesOnly s t i ∧ (∀ q, q ≠ p → t.eng q = s.eng q))

/-- CLOSE of a direct line's notice, which no port is offered (R54), completes the clear at once: the latch takes the
filtered level, which is the report, and the line opens again with the masked report and the arrears, or is QUIET; the
bus is not used, be it IDLE or not (R9, R63, R60, R83 to R87). -/
def Obligations.CloseOfADirectLineCompletesAtOnce : Prop :=
  ∀ (s : State) (p : Port) (f : Frame) (rest : List Frame) (k : Fin 8) (n : Notice) (active : Bool)
    (conds : CodeSet), Settled s → Executes s p .close f rest →
    Src.ofNum (f.byte 0).toNat = some (Src.ofLine k) → s.notice (Src.ofLine k) = some n → n.mark = f.mark →
    n.state = .claimed p → n.offers = PortSet.empty → BusNeverIdles s → n.conds.getLsbD 15 = false →
    (s.src (Src.ofLine k)).code15 = false → active = decide ((s.line k).filtered = .active) →
    conds = ((if active then 1 else 0) &&& (s.cfg (Src.ofLine k)).mask) ||| (s.src (Src.ofLine k)).arrears |||
      (n.conds &&& ~~~f.clearSet) →
    ∃ t, exec (.close p) s = .next t ∧ t.owes p ⟨0x22, .ok, f.payload.take 3⟩ ∧ t.bus = s.bus ∧
      t.line k = { s.line k with latch := active } ∧
      (t.src (Src.ofLine k)).reported = (if active then 1 else 0) ∧ (t.src (Src.ofLine k)).arrears = 0 ∧
      (conds ≠ 0 → Opened s t (Src.ofLine k) conds) ∧
      (conds = 0 → (t.src (Src.ofLine k)).state = .quiet ∧ t.notice (Src.ofLine k) = none) ∧
      TouchesOnly s t (Src.ofLine k)

/-! ### POLL, SWEEP, RESUME_FIELD and the reading requests (chapters 8 to 10) -/

/-- POLL of a field source: BUSY while the port has a poll outstanding; else the port joins the queued entry of the
source; else an entry is appended, and sent at once on an IDLE bus with nothing else to do. No response is made at an
acceptance (R38, R159, R42). POLL of a direct line is a line query answered at once: an enabled line's latch takes an
ACTIVE level, and a latch that holds {0} reports it, the new conditions applied by the state of the line and of its
notice (R10 to R13, R83 to R87); the answer carries the latch and REACHABLE. A disabled line changes nothing (R8, R160).
-/
def Obligations.PollIsQueuedOrAnswered : Prop :=
  (∀ (s : State) (p : Port) (f : Frame) (rest : List Frame) (i : Src), Settled s → Executes s p .poll f rest →
     Src.ofNum (f.byte 0).toNat = some i → i.isDirect = false →
     (s.pollOutstanding p = true →
       exec (.poll p) s = .next (s.reply p { s.eng p with requests := rest } ⟨0x23, .busy, f.payload⟩)) ∧
     (s.pollOutstanding p = false → (∃ e ∈ s.bus.pollQueue, e.src = i) →
       exec (.poll p) s = .next ((s.setEng p { s.eng p with requests := rest }).setBus { s.bus with
         pollQueue := s.bus.pollQueue.map (fun e =>
           if e.src = i then { e with requesters := e.requesters.insert p } else e) })) ∧
     (s.pollOutstanding p = false → (∀ e ∈ s.bus.pollQueue, e.src ≠ i) → s.bus.state ≠ .idle →
       exec (.poll p) s = .next ((s.setEng p { s.eng p with requests := rest }).setBus { s.bus with
         pollQueue := s.bus.pollQueue ++ [⟨i, PortSet.empty.insert p⟩] })) ∧
     (s.pollOutstanding p = false → s.bus.state = .idle → s.bus.pollQueue = [] → s.bus.clearList = [] →
       (s.bus.fatLow = false ∨ s.bus.suspended = true) →
       exec (.poll p) s = .next ((s.setEng p { s.eng p with requests := rest }).setBus { s.bus with
         state := s.opening (.poll ⟨i, PortSet.empty.insert p⟩) }))) ∧
  (∀ (s : State) (p : Port) (f : Frame) (rest : List Frame) (k : Fin 8) (latch : Bool), Settled s →
     SourcesOk s → Executes s p .poll f rest → Src.ofNum (f.byte 0).toNat = some (Src.ofLine k) →
     ((s.src (Src.ofLine k)).state = .disabled → exec (.poll p) s = .next (s.reply p
       { s.eng p with requests := rest }
       ⟨0x23, .ok, f.payload ++ [if (s.line k).latch then 1 else 0, 0, 0]⟩)) ∧
     ((s.src (Src.ofLine k)).state ≠ .disabled →
       latch = ((s.line k).latch || decide ((s.line k).filtered = .active)) →
       ∃ t, exec (.poll p) s = .next t ∧ t.line k = { s.line k with latch := latch } ∧ t.bus = s.bus ∧
         t.owes p ⟨0x23, .ok, f.payload ++ [if latch then 1 else 0, 0, 0]⟩ ∧
         TouchesOnly s t (Src.ofLine k) ∧ (latch = false → t.sources = s.sources ∧ t.notices = s.notices) ∧
         (latch = true → ReportArrives s t (Src.ofLine k) 1 ∧ (t.src (Src.ofLine k)).reported = 1 ∧
           (t.src (Src.ofLine k)).reach = .reachable ∧
           ((s.src (Src.ofLine k)).state = .quiet → s.newConds (Src.ofLine k) 1 ≠ 0 →
             Opened s t (Src.ofLine k) (s.newConds (Src.ofLine k) 1)))))

/-- SWEEP triggers a pass: a pass begins over the stranded list, or, while one runs, the pass-pending flag is set; with
nothing stranded and no pass there is no effect; OK is made at once and nothing else changes (R161, R90). STATUS is
answered with the 11 bytes of the status record, and READ_ENTRY with the table, the index and the content in force of
the entry, each with the bytes of its layout, that of SOURCE_STATE being the 12 bytes of the runtime fields and the
notice summary; the polarity of a field source reads 0; neither request changes anything else (R158, R173, R146, R2,
R71). -/
def Obligations.SweepStatusAndReadEntry : Prop :=
  (∀ (s : State) (p : Port) (f : Frame) (rest : List Frame), Settled s → Executes s p .sweep f rest →
     (s.delivery.passList = [] → exec (.sweep p) s = .next
       ((s.setPass s.stranded s.delivery.passPending).reply p { s.eng p with requests := rest }
         ⟨0x24, .ok, []⟩)) ∧
     (s.delivery.passList = [] → s.stranded = [] → exec (.sweep p) s = .next
       (s.reply p { s.eng p with requests := rest } ⟨0x24, .ok, []⟩)) ∧
     (s.delivery.passList ≠ [] → exec (.sweep p) s = .next
       ((s.setPass s.delivery.passList true).reply p { s.eng p with requests := rest } ⟨0x24, .ok, []⟩))) ∧
  (∀ (s : State) (p : Port) (f : Frame) (rest : List Frame), Settled s →
     (Executes s p .status f rest → exec (.status p) s = .next (s.reply p { s.eng p with requests := rest }
       ⟨0x40, .ok,
         [byteOf ((match s.stage with | .booting => 0 | .scanning => 1 | .running => 2) +
           (match (s.eng p).state with
             | .disabled => 0 | .detached => 4 | .attached w => 8 + 16 * w | .held w => 12 + 16 * w)),
          byteOf (s.offerCount p), byteOf (s.queue p).length, s.present p, s.latched p,
          (match s.config.right with | some .A => 0 | some .B => 1 | some .C => 2 | none => 3),
          byteOf s.stranded.length, byteOf (s.eng p).errors.parity, byteOf (s.eng p).errors.framing,
          byteOf (s.eng p).errors.check, byteOf (s.eng p).errors.overrun]⟩)) ∧
     (∀ table index, Executes s p .readEntry f rest → f.payload = [table, index] →
       ∃ content, exec (.readEntry p) s = .next (s.reply p { s.eng p with requests := rest }
         ⟨0x30, .ok, [table, index] ++ content⟩) ∧
       (table = 0 → ∀ i c, Src.ofNum index.toNat = some i → c = s.cfg i → content =
         [byteOf ((if c.enabled then 1 else 0) + (match c.mode with | .directed => 0 | .shared => 2) +
             (match c.polarity with | .activeLow => 0 | .activeHigh => 4) + 8 * c.cls.val),
           byteOf ((match c.route.primary with | .A => 0 | .B => 1 | .C => 2) +
             4 * (match c.route.fallback1 with | some .A => 0 | some .B => 1 | some .C => 2 | none => 3) +
             16 * (match c.route.fallback2 with | some .A => 0 | some .B => 1 | some .C => 2 | none => 3))] ++
           le16 c.mask ++ [c.tag] ∧
         (TablesInRange s → i.isDirect = false → c.polarity = .activeLow)) ∧
       (table = 1 → ∀ i, Src.ofNum index.toNat = some i → content =
         [byteOf ((match (s.src i).state with | .disabled => 0 | .quiet => 1 | .opened => 2 | .closing => 3) +
             (match (s.src i).reach with | .reachable => 0 | .unreachable => 4) +
             (if (s.src i).code15 then 8 else 0) +
             (match i.line with
               | none => 0
               | some k => (if (s.line k).filtered = .active then 16 else 0) + (if (s.line k).latch then 32 else 0)) +
             (match s.notice i with
               | none => 0
               | some n => match n.state with | .waiting => 64 | .claimed _ => 128 | .stranded => 192))] ++
           le16 (s.src i).reported ++ le16 (s.src i).arrears ++ le16 (s.src i).openings ++
           (match s.notice i with
             | none => [byteOf ((s.src i).failures + 96), 0, 0, 0, 0]
             | some n => [byteOf ((s.src i).failures +
                 (if n.offers.has .A then 4 else 0) + (if n.offers.has .B then 8 else 0) +
                 (if n.offers.has .C then 16 else 0) +
                 (match n.state with
                   | .claimed .A => 0 | .claimed .B => 32 | .claimed .C => 64 | .waiting => 96 | .stranded => 96))] ++
               le16 n.mark ++ le16 n.conds)) ∧
       (table = 2 → ∀ k : Fin 8, index.toNat = k.val → content =
         (match (s.clsCfg k).closeMode with | .manual => (0 : Byte) | .auto => 1) ::
           le16 (s.clsCfg k).serviceLimit) ∧
       (table = 3 → content = s.config.tables.order.map (fun k => byteOf k.val)) ∧
       (table = 4 → ∀ (q : Port) (c : PortCfg), index.toNat = q.index → c = s.portCfg q → content =
         byteOf ((if c.enabled then 1 else 0) + (if c.autoClear then 2 else 0) +
             (match c.rate with | .r38400 => 0 | .r115200 => 4 | .r460800 => 8 | .r921600 => 12)) ::
           (le16 c.offerLimit ++ [c.backlog, c.classFilter, c.eMap, c.wMap])) ∧
       (table = 5 → content =
         [(match s.config.tables.device.rate with | .k62_5 => (0 : Byte) | .k125 => 1 | .k250 => 2 | .k500 => 3),
           s.config.tables.device.window, s.config.tables.device.filterCount])))

/-- ACK_STATUS: every named code leaves the port's latched set, every named code present at the port joins it again, and
the response carries the set so left; the latched sets of the other ports are not touched (R167, R170). That a named
code whose condition is present is latched again follows R165 and R167 against the third row of R168, which is the
model's choice (log 35). -/
def Obligations.AcknowledgeClearsNamedCodes : Prop :=
  ∀ (s : State) (p : Port) (f : Frame) (rest : List Frame) (named left : DevSet), Settled s →
    Executes s p .ackStatus f rest → f.payload = [named] →
    left = (s.latched p &&& ~~~named) ||| (named &&& s.present p) →
    exec (.ackStatus p) s = .next
      (((s.setLatched p left).setSignalled p (s.signalled p &&& ~~~(named &&& s.present p))).reply p
        { s.eng p with requests := rest } ⟨0x41, .ok, [left]⟩)

/-- RESUME_FIELD sets the bid-failure run to 0 and clears the suspension flag, and is answered OK in every case; where
bidding was suspended the arbiter chooses again on an IDLE bus, with FAT as it then reads (R28, R162, R42). -/
def Obligations.ResumeFieldLiftsTheSuspension : Prop :=
  ∀ (s : State) (p : Port) (fat : Bool) (f : Frame) (rest : List Frame), Settled s →
    Executes s p .resumeField f rest →
    (s.bus.suspended = false → exec (.resumeField p fat) s = .next
      ((s.setBus { s.bus with bidRun := 0 }).reply p { s.eng p with requests := rest } ⟨0x42, .ok, []⟩)) ∧
    (s.bus.suspended = true → (s.bus.state ≠ .idle ∨ fat = false ∧ s.bus.clearList = [] ∧ s.bus.pollQueue = []) →
      exec (.resumeField p fat) s = .next
        ((s.setBus { s.bus with bidRun := 0, suspended := false, fatLow := fat }).reply p
          { s.eng p with requests := rest } ⟨0x42, .ok, []⟩)) ∧
    (s.bus.suspended = true → s.bus.state = .idle → fat = true → s.bus.clearList = [] → s.bus.pollQueue = [] →
      exec (.resumeField p fat) s = .next
        ((s.setBus { s.bus with bidRun := 0, suspended := false, fatLow := true, state := s.opening .bid }).reply p
          { s.eng p with requests := rest } ⟨0x42, .ok, []⟩))

/-! ### Configuration (chapter 10) -/

/-- The right is free after full reset, and no TAKE_RIGHT or GIVE_RIGHT changes anything in BOOTING. TAKE_RIGHT grants a
free right, answers the holder OK and any other port NO_RIGHT with the holder; GIVE_RIGHT frees the right of its holder
and is NOT_OWNER from any other; nothing else changes (R177). -/
def Obligations.RightIsTakenAndGiven : Prop :=
  State.reset.config.right = none ∧
  (∀ (s : State) (p : Port), s.stage = .booting →
    exec (.takeRight p) s = .next s ∧ exec (.giveRight p) s = .next s) ∧
  (∀ (s : State) (p : Port) (f : Frame) (rest : List Frame), Settled s →
    (Executes s p .takeRight f rest →
      (s.config.right = none → exec (.takeRight p) s = .next
        (State.reply { s with config := { s.config with right := some p } } p { s.eng p with requests := rest }
          ⟨0x32, .ok, []⟩)) ∧
      (s.config.right = some p → exec (.takeRight p) s = .next
        (s.reply p { s.eng p with requests := rest } ⟨0x32, .ok, []⟩)) ∧
      (∀ q, s.config.right = some q → q ≠ p → exec (.takeRight p) s = .next
        (s.reply p { s.eng p with requests := rest } ⟨0x32, .noRight, [byteOf q.index]⟩))) ∧
    (Executes s p .giveRight f rest →
      (s.config.right = some p → exec (.giveRight p) s = .next
        (State.reply { s with config := { s.config with right := none } } p { s.eng p with requests := rest }
          ⟨0x33, .ok, []⟩)) ∧
      (s.config.right ≠ some p → exec (.giveRight p) s = .next
        (s.reply p { s.eng p with requests := rest } ⟨0x33, .notOwner, []⟩))))

/-- STORE: NO_RIGHT and BUSY are answered at once; an accepted STORE is answered at its completion, has the tables as
they stand for its content and marks the image invalid (R179). That the image so marked keeps its former content and
check is the model's choice (log 34). -/
def Obligations.StoreIsAccepted : Prop :=
  ∀ (s : State) (p : Port) (f : Frame) (rest : List Frame), Settled s → Executes s p .store f rest →
    (s.config.right ≠ some p → exec (.store p) s = .next
      (s.reply p { s.eng p with requests := rest } ⟨0x34, .noRight, []⟩)) ∧
    (s.config.right = some p → s.config.store ≠ .idle → exec (.store p) s = .next
      (s.reply p { s.eng p with requests := rest } ⟨0x34, .busy, []⟩)) ∧
    (s.config.right = some p → s.config.store = .idle → exec (.store p) s = .next
      ({ s with config := { s.config with
          store := .writing s.config.tables (some p)
          image := { s.config.image with valid := false } } }.setEng p { s.eng p with requests := rest }))

/-- STORE_COMPLETE: the image read back equal in content and check to what was written is valid, ends STORE_BLANK and
STORE_FAULT and is answered OK; any difference leaves it not valid, makes STORE_FAULT present and latches it, leaves
STORE_BLANK, and is answered STORE_FAULT; with no recipient no response is made (R180). What counts as written is
encodeTables, whose order is the model's choice (log 12), and so is that an image that failed holds what was read back
(log 25). -/
def Obligations.StoreCompletionVerifiesTheImage : Prop :=
  ∀ (s : State) (T : Tables) (d : Option Port) (content : List Byte) (check : BitVec 16) (good : Bool), Settled s →
    s.config.store = .writing T d → (∀ q, d = some q → (s.eng q).state ≠ .disabled) →
    good = decide (content = encodeTables T ∧ check = crc16 (encodeTables T)) →
    ∃ t, exec (.storeComplete content check) s = .next t ∧
      t.config = { s.config with
        store := .idle
        image := ⟨good, content, check⟩
        storeBlank := s.config.storeBlank && !good
        storeFault := !good } ∧
      (∀ q, d = some q → t.owes q ⟨0x34, if good then .ok else .storeFault, []⟩) ∧
      (∀ q, d ≠ some q → t.eng q = s.eng q) ∧
      (good = true → ∀ q, t.latched q = s.latched q ∧ (t.present q).getLsbD 4 = false ∧
        (t.present q).getLsbD 5 = false) ∧
      (good = false → ∀ q, (t.present q).getLsbD 5 = true ∧
        t.latched q = if s.config.storeFault then s.latched q else s.latched q ||| 0x20) ∧
      t.notices = s.notices ∧ t.sources = s.sources ∧ t.bus = s.bus ∧ t.delivery = s.delivery

/-- The refusals of every row of WRITE_ENTRY, in their order: NO_RIGHT and BUSY with table and index, then BAD_ARG with
no data for a content out of the ranges of R175, and for no other; a refused write leaves every field (R174, R175).
That no value of byte 0 of a DEVICE content is out of range is the model's choice (log 33). -/
def Obligations.WritesAreRefusedAsTheRangesSay : Prop :=
  ∀ (s : State) (c : Instr) (p : Port) (f : Frame) (rest : List Frame) (table index : Byte) (content : List Byte),
    Settled s → c.request = some (p, .writeEntry) → c.fits s f = true → Executes s p .writeEntry f rest →
    f.payload = table :: index :: content →
    (s.config.right ≠ some p → exec c s = .next
      (s.reply p { s.eng p with requests := rest } ⟨0x31, .noRight, [table, index]⟩)) ∧
    (s.config.right = some p → s.config.store ≠ .idle → exec c s = .next
      (s.reply p { s.eng p with requests := rest } ⟨0x31, .busy, [table, index]⟩)) ∧
    (s.config.right = some p → s.config.store = .idle →
      (exec c s = .next (s.reply p { s.eng p with requests := rest } ⟨0x31, .badArg, []⟩) ↔
        ¬ contentInRange table.toNat content))

/-- SOURCE_DISABLE, and WRITE_SOURCE_ENTRY with it: the entry is in force, the notice ends with a DISABLED withdrawal to
each port of its offer set and to its claimant and no reference left, the clear entry goes and a clear in flight is
discarded, the runtime fields are reset but for the reported set and the opening count, and OK is made (R65, R4, R34,
R35, R174). -/
def Obligations.SourceDisableEndsTheNotice : Prop :=
  ∀ (s : State) (c : Instr) (p : Port) (f : Frame) (rest : List Frame) (index : Byte) (content : List Byte) (i : Src)
    (new : SourceCfg), PlacesOk s → c = .sourceDisable p ∨ c = .writeSourceEntry p →
    WriteTaken s p f rest 0 index content →
    Src.ofNum index.toNat = some i → decodeSource i content = some new → (s.cfg i).enabled = true →
    new.enabled = false →
    ∃ t, exec c s = .next t ∧ t.owes p ⟨0x31, .ok, [0, index]⟩ ∧ t.cfg i = new ∧
      (∀ j, j ≠ i → t.cfg j = s.cfg j ∧ t.src j = s.src j) ∧
      t.notice i = none ∧ (∀ q, i ∉ t.queue q) ∧ i ∉ t.stranded ∧
      (∀ n q, s.notice i = some n → (n.offers.has q = true ∨ n.state = .claimed q) →
        t.announces q ⟨i, n.mark, .disabled⟩) ∧
      t.src i = { s.src i with
        state := .disabled, arrears := 0, code15 := false, failures := 0, reach := .reachable } ∧
      (∀ k : Fin 8, i = Src.ofLine k → t.line k = { s.line k with latch := false }) ∧
      t.bus.clearList = s.bus.clearList.filter (fun e => e.src != i) ∧
      (∀ g e, s.bus.state = .inFlight g → g.work = .clear e false → e.src = i →
        t.bus.state = .inFlight { g with work := .clear e true }) ∧
      t.stage = s.stage ∧ (∀ q, (t.eng q).state = (s.eng q).state ∧ (t.eng q).requests =
        if q = p then rest else (s.eng q).requests) ∧ t.config = (s.setCfg i new).config

/-- SOURCE_ENABLE, and WRITE_SOURCE_ENTRY in every other case: the whole entry is in force; a source that the write
enables is QUIET with its runtime fields reset, and a direct line with its filtered level ACTIVE then reports {0} under
the new mask, class and route, and the notice it opens is walked along the new route; a changed route triggers a pass;
OK is made (R4, R174, R176, R89, R83 to R87). -/
def Obligations.SourceWritesTakeEffect : Prop :=
  ∀ (s : State) (c : Instr) (p : Port) (f : Frame) (rest : List Frame) (index : Byte) (content : List Byte) (i : Src)
    (new : SourceCfg) (quiet : SourceRt), Settled s →
    (c = .sourceEnable p ∨ c = .sourceDisable p ∨ c = .writeSourceEntry p) → c.fits s f = true →
    WriteTaken s p f rest 0 index content → Src.ofNum index.toNat = some i → decodeSource i content = some new →
    quiet = { s.src i with
      state := .quiet, arrears := 0, code15 := false, failures := 0, reach := .reachable } →
    ((s.cfg i).enabled = new.enabled → exec c s = .next
      ((if (s.cfg i).route = new.route then s.setCfg i new else (s.setCfg i new).triggerPass).reply p
        { s.eng p with requests := rest } (writeOk 0 index))) ∧
    ((s.cfg i).enabled = false → new.enabled = true → (∀ k, i = Src.ofLine k → (s.line k).filtered = .inactive) →
      exec c s = .next
        ((if (s.cfg i).route = new.route then (s.setCfg i new).setSrc i quiet
          else ((s.setCfg i new).setSrc i quiet).triggerPass).reply p
          { s.eng p with requests := rest } (writeOk 0 index))) ∧
    (∀ k, (s.cfg i).enabled = false → new.enabled = true → i = Src.ofLine k → (s.line k).filtered = .active →
      ∃ t, exec c s = .next t ∧ t.owes p (writeOk 0 index) ∧ t.config = (s.setCfg i new).config ∧ t.bus = s.bus ∧
        t.line k = { s.line k with latch := true } ∧ (t.src i).reported = 1 ∧
        (new.mask.getLsbD 0 = true → ∃ n, t.notice i = some n ∧ (t.src i).state = .opened ∧
          n.mark = (s.src i).openings + 1 ∧ n.conds = 1 ∧ n.cls = new.cls ∧ n.mode = new.mode ∧
          (SourcesOk s → WalkedAmong (s.setCfg i new) t i PortSet.empty n)) ∧
        (new.mask.getLsbD 0 = false → (t.src i).state = .quiet ∧ t.notices = s.notices))

/-- WRITE_CLASS_ENTRY and WRITE_DEVICE_ENTRY put the entry in force and change nothing else that lives: no timer, no
transaction in flight, no claim. WRITE_ORDER reorders every queue by the new rank and the opening order, with the same
references; one that repeats the order in force changes no queue (R73, R32, R78, R174). -/
def Obligations.ClassOrderAndDeviceWrites : Prop :=
  ∀ (s : State) (p : Port) (f : Frame) (rest : List Frame) (index : Byte) (content : List Byte), Settled s →
    (∀ (k : Fin 8) (new : ClassCfg), WriteTaken s p f rest 2 index content → index.toNat = k.val →
      decodeClass content = some new → exec (.writeClassEntry p) s = .next
        ((s.setClsCfg k new).reply p { s.eng p with requests := rest } (writeOk 2 index))) ∧
    (∀ new : DeviceCfg, WriteTaken s p f rest 5 index content → decodeDevice content = some new →
      exec (.writeDeviceEntry p) s = .next
        (State.reply { s with config := { s.config with tables := { s.config.tables with device := new } } } p
          { s.eng p with requests := rest } (writeOk 5 index))) ∧
    (∀ new : List (Fin 8), WriteTaken s p f rest 3 index content → decodeOrder content = some new →
      ∃ queues : PerPort (List Src), exec (.writeOrder p) s = .next
        (State.reply { s with
          config := { s.config with tables := { s.config.tables with order := new } }
          delivery := { s.delivery with queues := queues } } p
          { s.eng p with requests := rest } (writeOk 3 index)) ∧
      (new = s.config.tables.order → queues = s.delivery.queues) ∧
      (new ≠ s.config.tables.order → ∀ q, (queues.get q).Perm (s.queue q) ∧
        (queues.get q).Pairwise (fun i j => ∀ a b, s.notice i = some a → s.notice j = some b →
          new.idxOf a.cls < new.idxOf b.cls ∨ (new.idxOf a.cls = new.idxOf b.cls ∧ a.order ≤ b.order))))

/-- PORT_ENABLE and PORT_DISABLE, and WRITE_PORT_ENTRY with them: a port enabled is DETACHED with its receiver in HUNT,
its lists empty and LOST clear; a port disabled holds nothing, its offers, claims and references handed back, each
notice left with no place walked with the port skipped as tried, and is DISABLED with its lists empty, its frame cut off
and its counts and latched codes kept. OK is made, but not at the port that disabled itself (R149, R153, R127, R91,
R174, R83 to R87). -/
def Obligations.PortEnableAndDisable : Prop :=
  ∀ (s : State) (c : Instr) (p q : Port) (f : Frame) (rest : List Frame) (index : Byte) (content : List Byte)
    (new : PortCfg), HoldingsOk s → c.fits s f = true →
    (c = .portEnable p ∨ c = .portDisable p ∨ c = .writePortEntry p) →
    WriteTaken s p f rest 4 index content → index.toNat = q.index → decodePort content = some new →
    ((s.portCfg q).enabled = false → new.enabled = true →
      ∃ t, exec c s = .next t ∧ t.portCfg q = new ∧ (t.eng q).state = .detached ∧ (t.eng q).rx = .hunt ∧
        (t.eng q).requests = [] ∧ (t.eng q).responses = [] ∧ (t.eng q).withdrawals = [] ∧ (t.eng q).lost = false ∧
        (t.eng q).errors = (s.eng q).errors ∧ t.owes p (writeOk 4 index) ∧ t.sources = s.sources ∧
        (Settled s → t.notices = s.notices) ∧ (∀ r, r ≠ q → t.portCfg r = s.portCfg r ∧ (t.eng r).state = (s.eng r).state)) ∧
    ((s.portCfg q).enabled = true → new.enabled = false →
      ∃ t, exec c s = .next t ∧ t.portCfg q = new ∧ (t.eng q).state = .disabled ∧ (t.eng q).rx = .hunt ∧
        HoldsNothing t q ∧ HandedBack s t q ∧ (t.eng q).requests = [] ∧ (t.eng q).responses = [] ∧ (t.eng q).lost = false ∧
        (t.eng q).errors = (s.eng q).errors ∧ s.latched q &&& t.latched q = s.latched q ∧
        (∀ g, (s.eng q).tx = .sending g → (t.eng q).tx = .cutOff) ∧ t.nreq q = false ∧
        (q ≠ p → t.owes p (writeOk 4 index)) ∧ t.sources = s.sources ∧ t.stage = s.stage ∧
        (∀ r, r ≠ q → t.portCfg r = s.portCfg r ∧ (t.eng r).state = (s.eng r).state))

/-- BACKLOG_LIMIT_RAISE moves no reference and triggers a pass. BACKLOG_LIMIT_LOWER to a limit that the queue does not
exceed evicts nothing, and to one below the queue's length evicts the tail: the head-most references stay in order,
BACKLOG is present and latched, and each evicted notice has let the port go or stays at its other ports, and is walked
with the port skipped as tried where it has none (R79 to R81, R174, R83 to R87). WRITE_PORT_ENTRY, PORT_ENABLE and
PORT_DISABLE that leave Enabled, backlog limit and link rate as they are put auto-clear, offer limit, class filter and
maps in force, and a changed class filter triggers a pass; no running timer, offer, claim or reference changes (R82,
R89, R117, R169, R170, R174). -/
def Obligations.BacklogLimitWrites : Prop :=
  ∀ (s : State) (c : Instr) (p q : Port) (f : Frame) (rest : List Frame) (index : Byte) (content : List Byte)
    (new : PortCfg), Settled s → c.fits s f = true → WriteTaken s p f rest 4 index content →
    index.toNat = q.index → decodePort content = some new → new.enabled = (s.portCfg q).enabled →
    new.rate = (s.portCfg q).rate → (s.queue q).length ≤ (s.portCfg q).backlog.toNat →
    ((c = .backlogLimitRaise p ∨ c = .writePortEntry p) → (s.portCfg q).backlog.toNat < new.backlog.toNat →
      exec c s = .next ((s.setPortCfg q new).triggerPass.reply p { s.eng p with requests := rest }
        (writeOk 4 index))) ∧
    ((c = .backlogLimitLower p ∨ c = .writePortEntry p) → new.backlog.toNat < (s.portCfg q).backlog.toNat →
      (s.queue q).length < new.backlog.toNat →
      exec c s = .next ((s.setPortCfg q new).triggerPass.reply p { s.eng p with requests := rest }
        (writeOk 4 index))) ∧
    ((c = .backlogLimitLower p ∨ c = .writePortEntry p) → new.backlog.toNat < (s.portCfg q).backlog.toNat →
      new.backlog.toNat ≤ (s.queue q).length → (s.queue q).Nodup →
      ∃ t, exec c s = .next t ∧ t.portCfg q = new ∧ t.queue q = (s.queue q).take new.backlog.toNat ∧
        (t.present q).getLsbD 1 = true ∧
        ((s.queue q).length < (s.portCfg q).backlog.toNat → (t.latched q).getLsbD 1 = true) ∧
        t.owes p (writeOk 4 index) ∧
        (∀ i ∈ (s.queue q).drop new.backlog.toNat, ∀ n, s.notice i = some n → n.state = .waiting →
          ∃ m, t.notice i = some m ∧ m.mark = n.mark ∧ t.letGo q i m ∧
            ((∀ r, n.offers.has r = false ∧ (r ≠ q → i ∉ s.queue r)) → WalkedAmong s t i (n.tried.insert q) m)) ∧
        t.sources = s.sources ∧ t.bus = s.bus) ∧
    ((c = .writePortEntry p ∨ c = .portEnable p ∨ c = .portDisable p) → new.backlog = (s.portCfg q).backlog →
      exec c s = .next
        ((if new.classFilter = (s.portCfg q).classFilter then s.setPortCfg q new
          else (s.setPortCfg q new).triggerPass).reply p { s.eng p with requests := rest } (writeOk 4 index)))

/-- LINK_RATE_WRITE: from another port, at a transmitter that is between frames, the new rate is in force at once and
the receiver in HUNT; from the port itself it waits until the response to the write has been sent; a later write
replaces a rate that waits and does not bring it forward; the entry reads the new rate at once. That the wait is counted
in RESPONSE frames still to be sent is the model's reading of R131 (log 16). At the FRAME_SENT of the last of them, and
of any frame where none is waited for, the rate is in force, and the receiver drops its frame uncounted; a NOTICE or
WITHDRAWN that ends counts for nothing. DETACH, BREAK and PORT_DISABLE, which empty the response list, end the wait: the
rate is in force at once where the transmitter is between frames, and else at its next moment between frames, the end of
the character in progress where the frame was cut off (R131, R173). -/
def Obligations.LinkRateChangesAfterTheResponse : Prop :=
  (∀ (s : State) (c : Instr) (p q : Port) (f : Frame) (rest : List Frame) (index : Byte) (content : List Byte)
    (new : PortCfg), Settled s → c = .linkRateWrite p ∨ c = .writePortEntry p → c.fits s f = true →
    WriteTaken s p f rest 4 index content → index.toNat = q.index → decodePort content = some new →
    new.enabled = (s.portCfg q).enabled → new.backlog = (s.portCfg q).backlog →
    new.classFilter = (s.portCfg q).classFilter → new.rate ≠ (s.portCfg q).rate →
    (q ≠ p → (s.eng q).tx = .idle → (s.eng q).ratePending = none → exec c s = .next
      (((s.setPortCfg q new).setEng q { s.eng q with rate := new.rate, rx := .hunt }).reply p
        { s.eng p with requests := rest } (writeOk 4 index))) ∧
    (q ≠ p → (s.eng q).tx ≠ .idle → (s.eng q).ratePending = none → exec c s = .next
      (((s.setPortCfg q new).setEng q { s.eng q with ratePending := some ⟨new.rate, 0⟩ }).reply p
        { s.eng p with requests := rest } (writeOk 4 index))) ∧
    (∀ x, q ≠ p → (s.eng q).ratePending = some x → exec c s = .next
      (((s.setPortCfg q new).setEng q { s.eng q with ratePending := some ⟨new.rate, x.after⟩ }).reply p
        { s.eng p with requests := rest } (writeOk 4 index))) ∧
    (∀ owed, q = p →
      owed = (match (s.eng p).tx with | .sending ⟨_, _, _, .response _⟩ => 1 | _ => 0) +
        (s.eng p).responses.length + 1 →
      ((s.eng p).ratePending = none → exec c s = .next
        ((s.setPortCfg p new).reply p
          { s.eng p with requests := rest, ratePending := some ⟨new.rate, owed⟩ } (writeOk 4 index))) ∧
      (∀ x, (s.eng p).ratePending = some x → exec c s = .next
        ((s.setPortCfg p new).reply p
          { s.eng p with requests := rest, ratePending := some ⟨new.rate, max x.after owed⟩ }
          (writeOk 4 index))))) ∧
  (∀ (s : State) (p : Port) (f : TxFrame) (r : Response) (x : PendingRate), (s.eng p).tx = .sending f →
    f.body = .response r → (s.eng p).ratePending = some x →
    ∃ t, exec (.frameSent p) s = .next t ∧
      (x.after ≤ 1 → (t.eng p).rate = x.rate ∧ (t.eng p).ratePending = none ∧ (t.eng p).rx = .hunt ∧
        (t.eng p).errors = (s.eng p).errors) ∧
      (2 ≤ x.after → (t.eng p).rate = (s.eng p).rate ∧
        (t.eng p).ratePending = some ⟨x.rate, x.after - 1⟩ ∧ (t.eng p).rx = (s.eng p).rx)) ∧
  (∀ (s : State) (p : Port) (f : TxFrame) (x : PendingRate), (s.eng p).tx = .sending f →
    (∀ r, f.body ≠ .response r) → (s.eng p).ratePending = some x →
    ∃ t, exec (.frameSent p) s = .next t ∧
      (x.after = 0 → (t.eng p).rate = x.rate ∧ (t.eng p).ratePending = none ∧ (t.eng p).rx = .hunt ∧
        (t.eng p).errors = (s.eng p).errors) ∧
      (1 ≤ x.after → (t.eng p).rate = (s.eng p).rate ∧ (t.eng p).ratePending = some x ∧
        (t.eng p).rx = (s.eng p).rx)) ∧
  (∀ (s : State) (p : Port) (x : PendingRate), (s.eng p).ratePending = some x →
    (∀ f rest, Executes s p .detach f rest → ∃ t, exec (.detach p) s = .next t ∧ RateReleased s t p x.rate) ∧
    (s.stage ≠ .booting → (s.eng p).state ≠ .disabled →
      ∃ t, exec (.linkBreak p) s = .next t ∧ RateReleased s t p x.rate) ∧
    (∀ (c : Instr) (q : Port) (f : Frame) (rest : List Frame) (index : Byte) (content : List Byte) (new : PortCfg),
      c = .portDisable q ∨ c = .writePortEntry q → WriteTaken s q f rest 4 index content → index.toNat = p.index → decodePort content = some new →
      (s.portCfg p).enabled = true → new.enabled = false →
      ∃ t, exec c s = .next t ∧
        RateReleased s t p (if new.rate = (s.portCfg p).rate then x.rate else new.rate)) ∧
    ((s.eng p).tx = .cutOff → x.after = 0 →
      ∃ t, exec (.frameSent p) s = .next t ∧ (t.eng p).rate = x.rate ∧ (t.eng p).ratePending = none ∧
        (t.eng p).rx = .hunt))

/-! ### Invariants that every step keeps -/

/-- Every step keeps the bid-failure run within 0..4 and the suspension flag in step with it, and no bid round is in
flight while bidding is suspended (R27). Every step keeps the bus busy while there is work: outside BOOTING it is IDLE
only with no clear, no poll and no scan waiting, and with FAT high or bidding suspended (R42, R43). Every step keeps the
bus IDLE through BOOTING (R44). -/
def Obligations.StepKeepsTheFieldBusConsistent : Prop :=
  (∀ s t : State, BidRunOk s → step s = .next t → BidRunOk t) ∧
  (∀ s t : State, BusNeverIdles s → step s = .next t → BusNeverIdles t) ∧
  (∀ s t : State, BusRestsInBooting s → step s = .next t → BusRestsInBooting t)

/-- Every step keeps the bounds of the port engines (R134, R136, R137). Every step keeps at most one poll outstanding at
a port and its response list within 6 entries (R38, R142). -/
def Obligations.StepKeepsThePortEngineBounds : Prop :=
  (∀ s t : State, LinkBounds s → step s = .next t → LinkBounds t) ∧
  (∀ s t : State, ResponsesOk s → step s = .next t → ResponsesOk t)

/-- Every step keeps a record for a source exactly while it is OPEN, and the arrears of a source at rest empty (R3, R15,
R46). -/
def Obligations.StepKeepsRecordsWithOpenSources : Prop :=
  ∀ s t : State, SourcesOk s → step s = .next t → SourcesOk t

/-- Every step keeps a port that is not ATTACHED or HELD without any holding, and the offers of any other within its
window (R92, R93, R153). Every step keeps offers, claims and timers to the stage RUNNING (R92, R116). -/
def Obligations.StepKeepsHoldingsWithAttachedPorts : Prop :=
  (∀ s t : State, HoldingsOk s → step s = .next t → HoldingsOk t) ∧
  (∀ s t : State, OffersOnlyInRunning s → step s = .next t → OffersOnlyInRunning t)

/-- Every step keeps the tables, those in force and those being stored, within the ranges of R175. -/
def Obligations.StepKeepsTablesInRange : Prop :=
  ∀ s t : State, TablesInRange s → step s = .next t → TablesInRange t

/-- Every step keeps the notices in their places: WAITING with a reference or an offer, a DIRECTED one with exactly one,
CLAIMED and STRANDED with none, the stranded list with exactly the STRANDED notices, their tried sets empty, and the
tried sets and the backlog limits as R51 to R54, R68 and R75 say. That the pass list holds only members of the stranded
list, and that a trigger is pending only while a pass runs, is the model's reading of R88 and R90 (log 13). -/
def Obligations.StepKeepsNoticesInTheirPlaces : Prop :=
  ∀ s t : State, PlacesOk s → step s = .next t → PlacesOk t

/-- Every step keeps the queues in rank and opening order and the stranded list in opening order (R47, R68, R76). -/
def Obligations.StepKeepsTheOrders : Prop :=
  ∀ s t : State, OrdersOk s → step s = .next t → OrdersOk t

/-- Every step leaves every transmitter sending, or with nothing to send and no link rate due (R131, R143, R95). -/
def Obligations.StepLeavesTransmittersSettled : Prop :=
  ∀ s t : State, Settled s → step s = .next t → Settled t
end

