-- ==== Sys2Proof/Laws/Checks.lean ====
section
/-! SUPPORT. Checks that evaluate, and that what they check holds: for showing that a concrete state meets the hypotheses of
a statement. -/

namespace Sys2Proof.Machine

/-- A check at each port. -/
def allPorts (f : Port → Bool) : Bool := f .A && f .B && f .C

theorem allPorts_get {f : Port → Bool} (h : allPorts f = true) (p : Port) : f p = true := by
  simp only [allPorts, Bool.and_eq_true] at h
  cases p
  · exact h.1.1
  · exact h.1.2
  · exact h.2

/-- A check of each source. -/
def allSources (f : Src → Bool) : Bool := Src.all.all f

theorem allSources_get {f : Src → Bool} (h : allSources f = true) (i : Src) : f i = true :=
  List.all_eq_true.mp h i (List.mem_finRange i)

def quietB (s : State) (p : Port) : Bool :=
  (s.eng p).tx != .idle || (!(s.eng p).rateDue && ((s.eng p).state == .disabled ||
    ((s.eng p).responses == [] && (s.eng p).withdrawals == [] && !s.canTakeHead p)))

def settledB (s : State) : Bool :=
  allPorts (fun p => (s.queue p).all (fun i => (s.notice i).isSome) && quietB s p)

theorem settled_of {s : State} (h : settledB s = true) : Settled s := by
  refine ⟨fun p i hi => ?_, fun p hidle => ?_⟩
  · have hp := allPorts_get h p
    simp only [Bool.and_eq_true] at hp
    exact List.all_eq_true.mp hp.1 i hi
  · have hp := allPorts_get h p
    simp only [Bool.and_eq_true, quietB] at hp
    have hq := hp.2
    rw [hidle] at hq
    simp only [bne_self_eq_false, Bool.false_or, Bool.and_eq_true, Bool.not_eq_true', Bool.or_eq_true,
      beq_iff_eq] at hq
    refine ⟨hq.1, fun hd => ?_⟩
    rcases hq.2 with hd' | hr
    · exact absurd hd' hd
    · exact ⟨hr.1.1, hr.1.2, hr.2⟩

def executesB (s : State) (p : Port) (k : ReqKind) (f : Frame) (rest : List Frame) : Bool :=
  s.mayExecute p && (s.eng p).requests == f :: rest && f.head == k.head && s.decodeCheck p k f == none

theorem executes_of {s : State} {p : Port} {k : ReqKind} {f : Frame} {rest : List Frame}
    (h : executesB s p k f rest = true) : Executes s p k f rest := by
  simp only [executesB, Bool.and_eq_true, beq_iff_eq] at h
  exact ⟨h.1.1.1, h.1.1.2, h.1.2, h.2⟩

def writeTakenB (s : State) (p : Port) (f : Frame) (rest : List Frame) (table index : Byte) (content : List Byte) :
    Bool :=
  executesB s p .writeEntry f rest && f.payload == table :: index :: content && s.config.right == some p &&
    s.config.store == .idle

theorem writeTaken_of {s : State} {p : Port} {f : Frame} {rest : List Frame} {table index : Byte}
    {content : List Byte} (h : writeTakenB s p f rest table index content = true) :
    WriteTaken s p f rest table index content := by
  simp only [writeTakenB, Bool.and_eq_true, beq_iff_eq] at h
  exact ⟨executes_of h.1.1.1, h.1.1.2, h.1.2, h.2⟩

def sourcesB (s : State) : Bool :=
  allSources (fun i =>
    ((s.notice i).isSome == ((s.src i).state == .opened)) &&
      (!((s.src i).state == .quiet || (s.src i).state == .disabled) || (s.src i).arrears == 0) &&
      decide ((s.src i).failures ≤ 3) &&
      (if s.stage = .booting then (s.src i).state == .disabled && (s.src i).arrears == 0
        else (s.cfg i).enabled == !((s.src i).state == .disabled)))

theorem sourcesOk_of {s : State} (h : sourcesB s = true) : SourcesOk s := by
  have key (i : Src) := allSources_get h i
  simp only [Bool.and_eq_true] at key
  refine ⟨fun i => ?_, fun i hi => ?_, fun i => ?_, fun hst i => ?_, fun hst i => ?_⟩
  · have := (key i).1.1.1
    rw [beq_iff_eq] at this
    rw [this, beq_iff_eq]
  · have := (key i).1.1.2
    rcases hi with hi | hi <;> rw [hi] at this <;> simpa using this
  · exact of_decide_eq_true (key i).1.2
  · have := (key i).2
    rw [if_neg hst, beq_iff_eq] at this
    rw [this]
    simp
  · have := (key i).2
    rw [if_pos hst] at this
    simpa using this

def storesFor (st : StoreState) (p : Port) : Bool :=
  match st with
  | .writing _ (some q) => q == p
  | _ => false

def holdsNothingB (s : State) (p : Port) : Bool :=
  s.queue p == [] &&
    allSources (fun i => (s.notice i).all (fun n => !n.offers.has p && !(n.state == .claimed p))) &&
    !s.pollOutstanding p && !(s.config.right == some p) && !storesFor s.config.store p &&
    (s.eng p).withdrawals == []

theorem holdsNothing_of {s : State} {p : Port} (h : holdsNothingB s p = true) : HoldsNothing s p := by
  simp only [holdsNothingB, Bool.and_eq_true, beq_iff_eq, Bool.not_eq_true'] at h
  obtain ⟨⟨⟨⟨⟨hq, hn⟩, hp⟩, hr⟩, hs⟩, hw⟩ := h
  refine ⟨hq, fun i n hi => ?_, fun i n hi => ?_, hp, ?_, fun t ht => ?_, hw⟩
  · have := allSources_get hn i
    rw [hi] at this
    simp only [Option.all_some, Bool.and_eq_true, Bool.not_eq_true'] at this
    exact this.1
  · have := allSources_get hn i
    rw [hi] at this
    simp only [Option.all_some, Bool.and_eq_true, Bool.not_eq_true', beq_eq_false_iff_ne] at this
    exact this.2
  · simpa using hr
  · rw [ht] at hs
    simp [storesFor] at hs

def holdingsB (s : State) : Bool :=
  allPorts (fun p =>
    ((s.eng p).state.isOn || holdsNothingB s p) &&
      (!(s.eng p).state.isOn || (decide (1 ≤ (s.eng p).state.window) && decide ((s.eng p).state.window ≤ 4) &&
        decide (s.offerCount p ≤ (s.eng p).state.window))) &&
      (if s.stage = .booting then (s.eng p).state == .disabled
        else (s.portCfg p).enabled == !((s.eng p).state == .disabled)))

theorem holdingsOk_of {s : State} (h : holdingsB s = true) : HoldingsOk s := by
  have key (p : Port) := allPorts_get h p
  simp only [Bool.and_eq_true] at key
  refine ⟨fun p hp => ?_, fun p hp => ?_, fun hst p => ?_, fun hst p => ?_⟩
  · have := (key p).1.1
    rw [hp, Bool.false_or] at this
    exact holdsNothing_of this
  · have := (key p).1.2
    rw [hp] at this
    simpa [and_assoc] using this
  · have := (key p).2
    rw [if_pos hst, beq_iff_eq] at this
    exact this
  · have := (key p).2
    rw [if_neg hst, beq_iff_eq] at this
    rw [this]
    simp

def neverIdlesB (s : State) : Bool :=
  s.stage == .booting || !(s.bus.state == .idle) ||
    (s.bus.clearList == [] && s.bus.pollQueue == [] && s.stage == .running && (!s.bus.fatLow || s.bus.suspended))

theorem busNeverIdles_of {s : State} (h : neverIdlesB s = true) : BusNeverIdles s := by
  intro hb hi
  rw [neverIdlesB, hi] at h
  simp only [Bool.or_eq_true, beq_iff_eq, hb, Bool.not_eq_true', beq_self_eq_true, Bool.true_eq_false, or_self,
    false_or, Bool.and_eq_true] at h
  refine ⟨h.1.1.1, h.1.1.2, h.1.2, fun hf => ?_⟩
  simpa [hf] using h.2

/-- A check of each living notice. -/
def allNotices (s : State) (f : Src → Notice → Bool) : Bool := allSources (fun i => (s.notice i).all (f i))

theorem allNotices_get {s : State} {f : Src → Notice → Bool} (h : allNotices s f = true) {i : Src} {n : Notice}
    (hi : s.notice i = some n) : f i n = true := by
  have := allSources_get h i
  rw [hi] at this
  exact this

/-- Whether the notice n of i has a reference or an offer at p. -/
def placedAt (s : State) (i : Src) (n : Notice) (p : Port) : Bool := (s.queue p).contains i || n.offers.has p

def placesB (s : State) : Bool :=
  allPorts (fun p => (s.queue p).all (fun i => (s.notice i).any (fun n =>
      n.state == .waiting && !n.offers.has p && !n.tried.has p)) &&
    decide (s.queue p).Nodup && decide ((s.queue p).length ≤ s.backlogLimit p) &&
    (!(s.stage == .booting) || s.queue p == [])) &&
  allNotices s (fun i n =>
    (!(n.state == .waiting) || s.hasPlace i) &&
      (!(n.mode == .directed) || allPorts (fun p => allPorts (fun q =>
        !(placedAt s i n p && placedAt s i n q) || p == q))) &&
      allPorts (fun p => (!n.offers.has p || (n.state == .waiting && !n.tried.has p)) &&
        (!(n.state == .claimed p) || !n.tried.has p)) &&
      (!(n.state == .stranded) || n.tried == PortSet.empty)) &&
  allSources (fun i => s.stranded.contains i == (s.notice i).any (fun n => n.state == .stranded)) &&
  decide s.stranded.Nodup && decide s.delivery.passList.Nodup &&
  s.delivery.passList.all (fun i => s.stranded.contains i) &&
  (!s.delivery.passPending || !(s.delivery.passList == [])) && sourcesB s

theorem placesOk_of {s : State} (h : placesB s = true) : PlacesOk s := by
  simp only [placesB, Bool.and_eq_true] at h
  obtain ⟨⟨⟨⟨⟨⟨⟨hp, hn⟩, hs⟩, hso⟩, hpo⟩, hpl⟩, hpe⟩, hsrc⟩ := h
  have port (p : Port) := allPorts_get hp p
  simp only [Bool.and_eq_true] at port
  have note {i : Src} {n : Notice} (hi : s.notice i = some n) := allNotices_get hn hi
  simp only [Bool.and_eq_true] at note
  refine ⟨fun p i hi => ?_, fun i n hi hw => ?_, fun i n hi hd p q hpp hqq => ?_, fun i n p hi ho => ?_,
    fun i n p hi hc => ?_, fun i => ?_, fun i n hi hst => ?_, of_decide_eq_true hso, ⟨of_decide_eq_true hpo, fun i hi => ?_⟩,
    fun hpp => ?_, fun p => of_decide_eq_true (port p).1.1.2, fun p => of_decide_eq_true (port p).1.2,
    sourcesOk_of hsrc, fun hb p => ?_⟩
  · have := List.all_eq_true.mp (port p).1.1.1 i hi
    cases hni : s.notice i with
    | none => simp [hni] at this
    | some n =>
      rw [hni] at this
      simp only [Option.any_some, Bool.and_eq_true, beq_iff_eq, Bool.not_eq_true'] at this
      exact ⟨n, rfl, this.1.1, this.1.2, this.2⟩
  · have := (note hi).1.1.1
    rw [hw] at this
    simpa using this
  · have := (note hi).1.1.2
    rw [hd] at this
    simp only [beq_self_eq_true, Bool.not_true, Bool.false_or] at this
    have hpq := allPorts_get (allPorts_get this p) q
    have h1 : placedAt s i n p = true := by simpa [placedAt] using hpp
    have h2 : placedAt s i n q = true := by simpa [placedAt] using hqq
    rw [h1, h2] at hpq
    simpa using hpq
  · have := allPorts_get (note hi).1.2 p
    rw [ho] at this
    simp only [Bool.not_true, Bool.false_or, Bool.and_eq_true, beq_iff_eq, Bool.not_eq_true'] at this
    exact this.1
  · have := allPorts_get (note hi).1.2 p
    rw [hc] at this
    simp only [beq_self_eq_true, Bool.not_true, Bool.false_or, Bool.and_eq_true, Bool.not_eq_true'] at this
    exact this.2
  · have := allSources_get hs i
    rw [beq_iff_eq] at this
    rw [← List.contains_iff_mem, this]
    cases s.notice i with
    | none => simp
    | some n => simp
  · have := (note hi).2
    rw [hst] at this
    simpa using this
  · exact List.contains_iff_mem.mp (List.all_eq_true.mp hpl i hi)
  · rw [hpp] at hpe
    simpa using hpe
  · have := (port p).2
    rw [hb] at this
    simpa using this

/-- The ranges of the tables, as a check. -/
def tablesB (t : Tables) : Bool :=
  allSources (fun i => (t.sources.get i).route.ok && !CodeSet.has15 (t.sources.get i).mask &&
    (i.isDirect || (t.sources.get i).polarity == .activeLow)) &&
  orderOk t.order &&
  allPorts (fun p => decide (1 ≤ (t.ports.get p).backlog.toNat) && decide ((t.ports.get p).backlog.toNat ≤ 56)) &&
  decide (8 ≤ t.device.window.toNat) && decide (1 ≤ t.device.filterCount.toNat) &&
  decide (t.device.filterCount.toNat ≤ 15)

theorem tablesOk_of {t : Tables} (h : tablesB t = true) : TablesOk t := by
  simp only [tablesB, Bool.and_eq_true] at h
  obtain ⟨⟨⟨⟨⟨hs, ho⟩, hp⟩, hw⟩, hf⟩, hg⟩ := h
  have src (i : Src) := allSources_get hs i
  simp only [Bool.and_eq_true, Bool.not_eq_true'] at src
  refine ⟨fun i => (src i).1.1, fun i => (src i).1.2, fun i hi => ?_, ?_, fun p => ?_, of_decide_eq_true hw,
    of_decide_eq_true hf, of_decide_eq_true hg⟩
  · have := (src i).2
    rw [hi] at this
    simpa using this
  · simpa [orderOk] using ho
  · have := allPorts_get hp p
    simpa using this

end Sys2Proof.Machine
end

