-- ==== Sys2Proof/Laws/State.lean ====
section
/-! SUPPORT. What each update of State does to each field and to each accessor, one lemma for each pair. -/

namespace Sys2Proof

@[simp] theorem PerPort.get_set {α : Type} (v : PerPort α) (p q : Port) (x : α) :
    (v.set p x).get q = if p = q then x else v.get q := by
  cases p <;> cases q <;> rfl

@[simp] theorem PerPort.get_all {α : Type} (x : α) (p : Port) : (PerPort.all x).get p = x := by
  cases p <;> rfl

@[simp] theorem PerPort.get_build {α : Type} (f : Port → α) (p : Port) : (PerPort.build f).get p = f p := by
  cases p <;> rfl

theorem PerPort.ext_get {α : Type} {v w : PerPort α} (h : ∀ p, v.get p = w.get p) : v = w := by
  obtain ⟨a, b, c⟩ := v
  obtain ⟨d, e, f⟩ := w
  have ha : a = d := h .A
  have hb : b = e := h .B
  have hc : c = f := h .C
  rw [ha, hb, hc]

@[simp] theorem PerPort.set_get {α : Type} (v : PerPort α) (p : Port) : v.set p (v.get p) = v := by
  cases p <;> rfl

@[simp] theorem PortSet.has_empty (p : Port) : PortSet.empty.has p = false := by cases p <;> rfl

@[simp] theorem PortSet.has_insert (v : PortSet) (p q : Port) :
    (v.insert p).has q = (decide (p = q) || v.has q) := by
  cases p <;> cases q <;> rfl

@[simp] theorem PortSet.has_erase (v : PortSet) (p q : Port) :
    (v.erase p).has q = (!decide (p = q) && v.has q) := by
  cases p <;> cases q <;> rfl

theorem PortSet.isEmpty_iff (v : PortSet) : v.isEmpty = true ↔ ∀ p, v.has p = false := by
  obtain ⟨a, b, c⟩ := v
  constructor
  · intro h p
    cases a <;> cases b <;> cases c <;> first | (cases p <;> rfl) | exact absurd h (by decide)
  · intro h
    have ha : a = false := h .A
    have hb : b = false := h .B
    have hc : c = false := h .C
    rw [ha, hb, hc]
    rfl

@[simp] theorem tabulate_get {α : Type} {n : Nat} (f : Fin n → α) (i : Fin n) : (tabulate f).get i = f i := by
  show (tabulate f)[i.val] = f i
  simp [tabulate]

@[simp] theorem vector_get_set {α : Type} {n : Nat} (v : Vector α n) (i j : Fin n) (x : α) :
    (v.set i.val x i.isLt).get j = if i = j then x else v.get j := by
  show (v.set i.val x i.isLt)[j.val] = if i = j then x else v[j.val]
  simp [Vector.getElem_set, Fin.ext_iff]

theorem mem_portAll (p : Port) : p ∈ Port.all := by cases p <;> decide

theorem mem_srcAll (i : Src) : i ∈ Src.all := List.mem_finRange i

namespace Machine

@[simp] theorem State.pending_setSrc (s : State) (i : Src) (r : SourceRt) : (s.setSrc i r).pending = s.pending := rfl
@[simp] theorem State.stage_setSrc (s : State) (i : Src) (r : SourceRt) : (s.setSrc i r).stage = s.stage := rfl
@[simp] theorem State.notices_setSrc (s : State) (i : Src) (r : SourceRt) : (s.setSrc i r).notices = s.notices := rfl
@[simp] theorem State.delivery_setSrc (s : State) (i : Src) (r : SourceRt) : (s.setSrc i r).delivery = s.delivery := rfl
@[simp] theorem State.bus_setSrc (s : State) (i : Src) (r : SourceRt) : (s.setSrc i r).bus = s.bus := rfl
@[simp] theorem State.engines_setSrc (s : State) (i : Src) (r : SourceRt) : (s.setSrc i r).engines = s.engines := rfl
@[simp] theorem State.attention_setSrc (s : State) (i : Src) (r : SourceRt) :
    (s.setSrc i r).attention = s.attention := rfl
@[simp] theorem State.config_setSrc (s : State) (i : Src) (r : SourceRt) : (s.setSrc i r).config = s.config := rfl
@[simp] theorem State.free_setSrc (s : State) (i : Src) (r : SourceRt) : (s.setSrc i r).free = s.free := rfl
@[simp] theorem State.src_setSrc (s : State) (i : Src) (r : SourceRt) (j : Src) :
    (s.setSrc i r).src j = if i = j then r else s.src j := by
  simp [State.src, State.setSrc]
@[simp] theorem State.line_setSrc (s : State) (i : Src) (r : SourceRt) (j : Fin 8) :
    (s.setSrc i r).line j = s.line j := rfl
@[simp] theorem State.notice_setSrc (s : State) (i : Src) (r : SourceRt) (j : Src) :
    (s.setSrc i r).notice j = s.notice j := rfl
@[simp] theorem State.stranded_setSrc (s : State) (i : Src) (r : SourceRt) : (s.setSrc i r).stranded = s.stranded := rfl
@[simp] theorem State.queue_setSrc (s : State) (i : Src) (r : SourceRt) (x : Port) :
    (s.setSrc i r).queue x = s.queue x := rfl
@[simp] theorem State.eng_setSrc (s : State) (i : Src) (r : SourceRt) (x : Port) : (s.setSrc i r).eng x = s.eng x := rfl
@[simp] theorem State.latched_setSrc (s : State) (i : Src) (r : SourceRt) (x : Port) :
    (s.setSrc i r).latched x = s.latched x := rfl
@[simp] theorem State.signalled_setSrc (s : State) (i : Src) (r : SourceRt) (x : Port) :
    (s.setSrc i r).signalled x = s.signalled x := rfl
@[simp] theorem State.cfg_setSrc (s : State) (i : Src) (r : SourceRt) (j : Src) : (s.setSrc i r).cfg j = s.cfg j := rfl
@[simp] theorem State.clsCfg_setSrc (s : State) (i : Src) (r : SourceRt) (j : Fin 8) :
    (s.setSrc i r).clsCfg j = s.clsCfg j := rfl
@[simp] theorem State.portCfg_setSrc (s : State) (i : Src) (r : SourceRt) (x : Port) :
    (s.setSrc i r).portCfg x = s.portCfg x := rfl

@[simp] theorem State.pending_setLine (s : State) (k : Fin 8) (r : LineRt) : (s.setLine k r).pending = s.pending := rfl
@[simp] theorem State.stage_setLine (s : State) (k : Fin 8) (r : LineRt) : (s.setLine k r).stage = s.stage := rfl
@[simp] theorem State.notices_setLine (s : State) (k : Fin 8) (r : LineRt) : (s.setLine k r).notices = s.notices := rfl
@[simp] theorem State.delivery_setLine (s : State) (k : Fin 8) (r : LineRt) :
    (s.setLine k r).delivery = s.delivery := rfl
@[simp] theorem State.bus_setLine (s : State) (k : Fin 8) (r : LineRt) : (s.setLine k r).bus = s.bus := rfl
@[simp] theorem State.engines_setLine (s : State) (k : Fin 8) (r : LineRt) : (s.setLine k r).engines = s.engines := rfl
@[simp] theorem State.attention_setLine (s : State) (k : Fin 8) (r : LineRt) :
    (s.setLine k r).attention = s.attention := rfl
@[simp] theorem State.config_setLine (s : State) (k : Fin 8) (r : LineRt) : (s.setLine k r).config = s.config := rfl
@[simp] theorem State.free_setLine (s : State) (k : Fin 8) (r : LineRt) : (s.setLine k r).free = s.free := rfl
@[simp] theorem State.src_setLine (s : State) (k : Fin 8) (r : LineRt) (j : Src) :
    (s.setLine k r).src j = s.src j := rfl
@[simp] theorem State.line_setLine (s : State) (k : Fin 8) (r : LineRt) (j : Fin 8) :
    (s.setLine k r).line j = if k = j then r else s.line j := by
  simp [State.line, State.setLine]
@[simp] theorem State.notice_setLine (s : State) (k : Fin 8) (r : LineRt) (j : Src) :
    (s.setLine k r).notice j = s.notice j := rfl
@[simp] theorem State.stranded_setLine (s : State) (k : Fin 8) (r : LineRt) :
    (s.setLine k r).stranded = s.stranded := rfl
@[simp] theorem State.queue_setLine (s : State) (k : Fin 8) (r : LineRt) (x : Port) :
    (s.setLine k r).queue x = s.queue x := rfl
@[simp] theorem State.eng_setLine (s : State) (k : Fin 8) (r : LineRt) (x : Port) :
    (s.setLine k r).eng x = s.eng x := rfl
@[simp] theorem State.latched_setLine (s : State) (k : Fin 8) (r : LineRt) (x : Port) :
    (s.setLine k r).latched x = s.latched x := rfl
@[simp] theorem State.signalled_setLine (s : State) (k : Fin 8) (r : LineRt) (x : Port) :
    (s.setLine k r).signalled x = s.signalled x := rfl
@[simp] theorem State.cfg_setLine (s : State) (k : Fin 8) (r : LineRt) (j : Src) :
    (s.setLine k r).cfg j = s.cfg j := rfl
@[simp] theorem State.clsCfg_setLine (s : State) (k : Fin 8) (r : LineRt) (j : Fin 8) :
    (s.setLine k r).clsCfg j = s.clsCfg j := rfl
@[simp] theorem State.portCfg_setLine (s : State) (k : Fin 8) (r : LineRt) (x : Port) :
    (s.setLine k r).portCfg x = s.portCfg x := rfl

@[simp] theorem State.pending_setNotice (s : State) (i : Src) (n : Option Notice) :
    (s.setNotice i n).pending = s.pending := rfl
@[simp] theorem State.stage_setNotice (s : State) (i : Src) (n : Option Notice) :
    (s.setNotice i n).stage = s.stage := rfl
@[simp] theorem State.sources_setNotice (s : State) (i : Src) (n : Option Notice) :
    (s.setNotice i n).sources = s.sources := rfl
@[simp] theorem State.delivery_setNotice (s : State) (i : Src) (n : Option Notice) :
    (s.setNotice i n).delivery = s.delivery := rfl
@[simp] theorem State.bus_setNotice (s : State) (i : Src) (n : Option Notice) : (s.setNotice i n).bus = s.bus := rfl
@[simp] theorem State.engines_setNotice (s : State) (i : Src) (n : Option Notice) :
    (s.setNotice i n).engines = s.engines := rfl
@[simp] theorem State.attention_setNotice (s : State) (i : Src) (n : Option Notice) :
    (s.setNotice i n).attention = s.attention := rfl
@[simp] theorem State.config_setNotice (s : State) (i : Src) (n : Option Notice) :
    (s.setNotice i n).config = s.config := rfl
@[simp] theorem State.free_setNotice (s : State) (i : Src) (n : Option Notice) : (s.setNotice i n).free = s.free := rfl
@[simp] theorem State.src_setNotice (s : State) (i : Src) (n : Option Notice) (j : Src) :
    (s.setNotice i n).src j = s.src j := rfl
@[simp] theorem State.line_setNotice (s : State) (i : Src) (n : Option Notice) (j : Fin 8) :
    (s.setNotice i n).line j = s.line j := rfl
@[simp] theorem State.notice_setNotice (s : State) (i : Src) (n : Option Notice) (j : Src) :
    (s.setNotice i n).notice j = if i = j then n else s.notice j := by
  simp [State.notice, State.setNotice]
@[simp] theorem State.stranded_setNotice (s : State) (i : Src) (n : Option Notice) :
    (s.setNotice i n).stranded = s.stranded := rfl
@[simp] theorem State.queue_setNotice (s : State) (i : Src) (n : Option Notice) (x : Port) :
    (s.setNotice i n).queue x = s.queue x := rfl
@[simp] theorem State.eng_setNotice (s : State) (i : Src) (n : Option Notice) (x : Port) :
    (s.setNotice i n).eng x = s.eng x := rfl
@[simp] theorem State.latched_setNotice (s : State) (i : Src) (n : Option Notice) (x : Port) :
    (s.setNotice i n).latched x = s.latched x := rfl
@[simp] theorem State.signalled_setNotice (s : State) (i : Src) (n : Option Notice) (x : Port) :
    (s.setNotice i n).signalled x = s.signalled x := rfl
@[simp] theorem State.cfg_setNotice (s : State) (i : Src) (n : Option Notice) (j : Src) :
    (s.setNotice i n).cfg j = s.cfg j := rfl
@[simp] theorem State.clsCfg_setNotice (s : State) (i : Src) (n : Option Notice) (j : Fin 8) :
    (s.setNotice i n).clsCfg j = s.clsCfg j := rfl
@[simp] theorem State.portCfg_setNotice (s : State) (i : Src) (n : Option Notice) (x : Port) :
    (s.setNotice i n).portCfg x = s.portCfg x := rfl

@[simp] theorem State.pending_setStranded (s : State) (l : List Src) : (s.setStranded l).pending = s.pending := rfl
@[simp] theorem State.stage_setStranded (s : State) (l : List Src) : (s.setStranded l).stage = s.stage := rfl
@[simp] theorem State.sources_setStranded (s : State) (l : List Src) : (s.setStranded l).sources = s.sources := rfl
@[simp] theorem State.delivery_setStranded (s : State) (l : List Src) : (s.setStranded l).delivery = s.delivery := rfl
@[simp] theorem State.bus_setStranded (s : State) (l : List Src) : (s.setStranded l).bus = s.bus := rfl
@[simp] theorem State.engines_setStranded (s : State) (l : List Src) : (s.setStranded l).engines = s.engines := rfl
@[simp] theorem State.attention_setStranded (s : State) (l : List Src) :
    (s.setStranded l).attention = s.attention := rfl
@[simp] theorem State.config_setStranded (s : State) (l : List Src) : (s.setStranded l).config = s.config := rfl
@[simp] theorem State.free_setStranded (s : State) (l : List Src) : (s.setStranded l).free = s.free := rfl
@[simp] theorem State.src_setStranded (s : State) (l : List Src) (j : Src) : (s.setStranded l).src j = s.src j := rfl
@[simp] theorem State.line_setStranded (s : State) (l : List Src) (j : Fin 8) :
    (s.setStranded l).line j = s.line j := rfl
@[simp] theorem State.notice_setStranded (s : State) (l : List Src) (j : Src) :
    (s.setStranded l).notice j = s.notice j := rfl
@[simp] theorem State.stranded_setStranded (s : State) (l : List Src) : (s.setStranded l).stranded = l := rfl
@[simp] theorem State.queue_setStranded (s : State) (l : List Src) (x : Port) :
    (s.setStranded l).queue x = s.queue x := rfl
@[simp] theorem State.eng_setStranded (s : State) (l : List Src) (x : Port) : (s.setStranded l).eng x = s.eng x := rfl
@[simp] theorem State.latched_setStranded (s : State) (l : List Src) (x : Port) :
    (s.setStranded l).latched x = s.latched x := rfl
@[simp] theorem State.signalled_setStranded (s : State) (l : List Src) (x : Port) :
    (s.setStranded l).signalled x = s.signalled x := rfl
@[simp] theorem State.cfg_setStranded (s : State) (l : List Src) (j : Src) : (s.setStranded l).cfg j = s.cfg j := rfl
@[simp] theorem State.clsCfg_setStranded (s : State) (l : List Src) (j : Fin 8) :
    (s.setStranded l).clsCfg j = s.clsCfg j := rfl
@[simp] theorem State.portCfg_setStranded (s : State) (l : List Src) (x : Port) :
    (s.setStranded l).portCfg x = s.portCfg x := rfl

@[simp] theorem State.pending_setQueue (s : State) (p : Port) (q : List Src) :
    (s.setQueue p q).pending = s.pending := rfl
@[simp] theorem State.stage_setQueue (s : State) (p : Port) (q : List Src) : (s.setQueue p q).stage = s.stage := rfl
@[simp] theorem State.sources_setQueue (s : State) (p : Port) (q : List Src) :
    (s.setQueue p q).sources = s.sources := rfl
@[simp] theorem State.notices_setQueue (s : State) (p : Port) (q : List Src) :
    (s.setQueue p q).notices = s.notices := rfl
@[simp] theorem State.bus_setQueue (s : State) (p : Port) (q : List Src) : (s.setQueue p q).bus = s.bus := rfl
@[simp] theorem State.engines_setQueue (s : State) (p : Port) (q : List Src) :
    (s.setQueue p q).engines = s.engines := rfl
@[simp] theorem State.attention_setQueue (s : State) (p : Port) (q : List Src) :
    (s.setQueue p q).attention = s.attention := rfl
@[simp] theorem State.config_setQueue (s : State) (p : Port) (q : List Src) : (s.setQueue p q).config = s.config := rfl
@[simp] theorem State.free_setQueue (s : State) (p : Port) (q : List Src) : (s.setQueue p q).free = s.free := rfl
@[simp] theorem State.src_setQueue (s : State) (p : Port) (q : List Src) (j : Src) :
    (s.setQueue p q).src j = s.src j := rfl
@[simp] theorem State.line_setQueue (s : State) (p : Port) (q : List Src) (j : Fin 8) :
    (s.setQueue p q).line j = s.line j := rfl
@[simp] theorem State.notice_setQueue (s : State) (p : Port) (q : List Src) (j : Src) :
    (s.setQueue p q).notice j = s.notice j := rfl
@[simp] theorem State.stranded_setQueue (s : State) (p : Port) (q : List Src) :
    (s.setQueue p q).stranded = s.stranded := rfl
@[simp] theorem State.queue_setQueue (s : State) (p : Port) (q : List Src) (x : Port) :
    (s.setQueue p q).queue x = if p = x then q else s.queue x := by
  simp [State.queue, State.setQueue]
@[simp] theorem State.eng_setQueue (s : State) (p : Port) (q : List Src) (x : Port) :
    (s.setQueue p q).eng x = s.eng x := rfl
@[simp] theorem State.latched_setQueue (s : State) (p : Port) (q : List Src) (x : Port) :
    (s.setQueue p q).latched x = s.latched x := rfl
@[simp] theorem State.signalled_setQueue (s : State) (p : Port) (q : List Src) (x : Port) :
    (s.setQueue p q).signalled x = s.signalled x := rfl
@[simp] theorem State.cfg_setQueue (s : State) (p : Port) (q : List Src) (j : Src) :
    (s.setQueue p q).cfg j = s.cfg j := rfl
@[simp] theorem State.clsCfg_setQueue (s : State) (p : Port) (q : List Src) (j : Fin 8) :
    (s.setQueue p q).clsCfg j = s.clsCfg j := rfl
@[simp] theorem State.portCfg_setQueue (s : State) (p : Port) (q : List Src) (x : Port) :
    (s.setQueue p q).portCfg x = s.portCfg x := rfl

@[simp] theorem State.pending_setPass (s : State) (l : List Src) (b : Bool) : (s.setPass l b).pending = s.pending := rfl
@[simp] theorem State.stage_setPass (s : State) (l : List Src) (b : Bool) : (s.setPass l b).stage = s.stage := rfl
@[simp] theorem State.sources_setPass (s : State) (l : List Src) (b : Bool) : (s.setPass l b).sources = s.sources := rfl
@[simp] theorem State.notices_setPass (s : State) (l : List Src) (b : Bool) : (s.setPass l b).notices = s.notices := rfl
@[simp] theorem State.bus_setPass (s : State) (l : List Src) (b : Bool) : (s.setPass l b).bus = s.bus := rfl
@[simp] theorem State.engines_setPass (s : State) (l : List Src) (b : Bool) : (s.setPass l b).engines = s.engines := rfl
@[simp] theorem State.attention_setPass (s : State) (l : List Src) (b : Bool) :
    (s.setPass l b).attention = s.attention := rfl
@[simp] theorem State.config_setPass (s : State) (l : List Src) (b : Bool) : (s.setPass l b).config = s.config := rfl
@[simp] theorem State.free_setPass (s : State) (l : List Src) (b : Bool) : (s.setPass l b).free = s.free := rfl
@[simp] theorem State.src_setPass (s : State) (l : List Src) (b : Bool) (j : Src) :
    (s.setPass l b).src j = s.src j := rfl
@[simp] theorem State.line_setPass (s : State) (l : List Src) (b : Bool) (j : Fin 8) :
    (s.setPass l b).line j = s.line j := rfl
@[simp] theorem State.notice_setPass (s : State) (l : List Src) (b : Bool) (j : Src) :
    (s.setPass l b).notice j = s.notice j := rfl
@[simp] theorem State.stranded_setPass (s : State) (l : List Src) (b : Bool) :
    (s.setPass l b).stranded = s.stranded := rfl
@[simp] theorem State.queue_setPass (s : State) (l : List Src) (b : Bool) (x : Port) :
    (s.setPass l b).queue x = s.queue x := rfl
@[simp] theorem State.eng_setPass (s : State) (l : List Src) (b : Bool) (x : Port) :
    (s.setPass l b).eng x = s.eng x := rfl
@[simp] theorem State.latched_setPass (s : State) (l : List Src) (b : Bool) (x : Port) :
    (s.setPass l b).latched x = s.latched x := rfl
@[simp] theorem State.signalled_setPass (s : State) (l : List Src) (b : Bool) (x : Port) :
    (s.setPass l b).signalled x = s.signalled x := rfl
@[simp] theorem State.cfg_setPass (s : State) (l : List Src) (b : Bool) (j : Src) :
    (s.setPass l b).cfg j = s.cfg j := rfl
@[simp] theorem State.clsCfg_setPass (s : State) (l : List Src) (b : Bool) (j : Fin 8) :
    (s.setPass l b).clsCfg j = s.clsCfg j := rfl
@[simp] theorem State.portCfg_setPass (s : State) (l : List Src) (b : Bool) (x : Port) :
    (s.setPass l b).portCfg x = s.portCfg x := rfl
@[simp] theorem State.passList_setPass (s : State) (l : List Src) (b : Bool) :
    (s.setPass l b).delivery.passList = l := rfl
@[simp] theorem State.passPending_setPass (s : State) (l : List Src) (b : Bool) :
    (s.setPass l b).delivery.passPending = b := rfl

@[simp] theorem State.pending_setEng (s : State) (p : Port) (e : PortEngine) : (s.setEng p e).pending = s.pending := rfl
@[simp] theorem State.stage_setEng (s : State) (p : Port) (e : PortEngine) : (s.setEng p e).stage = s.stage := rfl
@[simp] theorem State.sources_setEng (s : State) (p : Port) (e : PortEngine) : (s.setEng p e).sources = s.sources := rfl
@[simp] theorem State.notices_setEng (s : State) (p : Port) (e : PortEngine) : (s.setEng p e).notices = s.notices := rfl
@[simp] theorem State.delivery_setEng (s : State) (p : Port) (e : PortEngine) :
    (s.setEng p e).delivery = s.delivery := rfl
@[simp] theorem State.bus_setEng (s : State) (p : Port) (e : PortEngine) : (s.setEng p e).bus = s.bus := rfl
@[simp] theorem State.attention_setEng (s : State) (p : Port) (e : PortEngine) :
    (s.setEng p e).attention = s.attention := rfl
@[simp] theorem State.config_setEng (s : State) (p : Port) (e : PortEngine) : (s.setEng p e).config = s.config := rfl
@[simp] theorem State.free_setEng (s : State) (p : Port) (e : PortEngine) : (s.setEng p e).free = s.free := rfl
@[simp] theorem State.src_setEng (s : State) (p : Port) (e : PortEngine) (j : Src) :
    (s.setEng p e).src j = s.src j := rfl
@[simp] theorem State.line_setEng (s : State) (p : Port) (e : PortEngine) (j : Fin 8) :
    (s.setEng p e).line j = s.line j := rfl
@[simp] theorem State.notice_setEng (s : State) (p : Port) (e : PortEngine) (j : Src) :
    (s.setEng p e).notice j = s.notice j := rfl
@[simp] theorem State.stranded_setEng (s : State) (p : Port) (e : PortEngine) :
    (s.setEng p e).stranded = s.stranded := rfl
@[simp] theorem State.queue_setEng (s : State) (p : Port) (e : PortEngine) (x : Port) :
    (s.setEng p e).queue x = s.queue x := rfl
@[simp] theorem State.eng_setEng (s : State) (p : Port) (e : PortEngine) (x : Port) :
    (s.setEng p e).eng x = if p = x then e else s.eng x := by
  simp [State.eng, State.setEng]
@[simp] theorem State.latched_setEng (s : State) (p : Port) (e : PortEngine) (x : Port) :
    (s.setEng p e).latched x = s.latched x := rfl
@[simp] theorem State.signalled_setEng (s : State) (p : Port) (e : PortEngine) (x : Port) :
    (s.setEng p e).signalled x = s.signalled x := rfl
@[simp] theorem State.cfg_setEng (s : State) (p : Port) (e : PortEngine) (j : Src) :
    (s.setEng p e).cfg j = s.cfg j := rfl
@[simp] theorem State.clsCfg_setEng (s : State) (p : Port) (e : PortEngine) (j : Fin 8) :
    (s.setEng p e).clsCfg j = s.clsCfg j := rfl
@[simp] theorem State.portCfg_setEng (s : State) (p : Port) (e : PortEngine) (x : Port) :
    (s.setEng p e).portCfg x = s.portCfg x := rfl

@[simp] theorem State.pending_setLatched (s : State) (p : Port) (m : DevSet) :
    (s.setLatched p m).pending = s.pending := rfl
@[simp] theorem State.stage_setLatched (s : State) (p : Port) (m : DevSet) : (s.setLatched p m).stage = s.stage := rfl
@[simp] theorem State.sources_setLatched (s : State) (p : Port) (m : DevSet) :
    (s.setLatched p m).sources = s.sources := rfl
@[simp] theorem State.notices_setLatched (s : State) (p : Port) (m : DevSet) :
    (s.setLatched p m).notices = s.notices := rfl
@[simp] theorem State.delivery_setLatched (s : State) (p : Port) (m : DevSet) :
    (s.setLatched p m).delivery = s.delivery := rfl
@[simp] theorem State.bus_setLatched (s : State) (p : Port) (m : DevSet) : (s.setLatched p m).bus = s.bus := rfl
@[simp] theorem State.engines_setLatched (s : State) (p : Port) (m : DevSet) :
    (s.setLatched p m).engines = s.engines := rfl
@[simp] theorem State.config_setLatched (s : State) (p : Port) (m : DevSet) :
    (s.setLatched p m).config = s.config := rfl
@[simp] theorem State.free_setLatched (s : State) (p : Port) (m : DevSet) : (s.setLatched p m).free = s.free := rfl
@[simp] theorem State.src_setLatched (s : State) (p : Port) (m : DevSet) (j : Src) :
    (s.setLatched p m).src j = s.src j := rfl
@[simp] theorem State.line_setLatched (s : State) (p : Port) (m : DevSet) (j : Fin 8) :
    (s.setLatched p m).line j = s.line j := rfl
@[simp] theorem State.notice_setLatched (s : State) (p : Port) (m : DevSet) (j : Src) :
    (s.setLatched p m).notice j = s.notice j := rfl
@[simp] theorem State.stranded_setLatched (s : State) (p : Port) (m : DevSet) :
    (s.setLatched p m).stranded = s.stranded := rfl
@[simp] theorem State.queue_setLatched (s : State) (p : Port) (m : DevSet) (x : Port) :
    (s.setLatched p m).queue x = s.queue x := rfl
@[simp] theorem State.eng_setLatched (s : State) (p : Port) (m : DevSet) (x : Port) :
    (s.setLatched p m).eng x = s.eng x := rfl
@[simp] theorem State.latched_setLatched (s : State) (p : Port) (m : DevSet) (x : Port) :
    (s.setLatched p m).latched x = if p = x then m else s.latched x := by
  simp [State.latched, State.setLatched]
@[simp] theorem State.signalled_setLatched (s : State) (p : Port) (m : DevSet) (x : Port) :
    (s.setLatched p m).signalled x = s.signalled x := rfl
@[simp] theorem State.cfg_setLatched (s : State) (p : Port) (m : DevSet) (j : Src) :
    (s.setLatched p m).cfg j = s.cfg j := rfl
@[simp] theorem State.clsCfg_setLatched (s : State) (p : Port) (m : DevSet) (j : Fin 8) :
    (s.setLatched p m).clsCfg j = s.clsCfg j := rfl
@[simp] theorem State.portCfg_setLatched (s : State) (p : Port) (m : DevSet) (x : Port) :
    (s.setLatched p m).portCfg x = s.portCfg x := rfl

@[simp] theorem State.pending_setSignalled (s : State) (p : Port) (m : DevSet) :
    (s.setSignalled p m).pending = s.pending := rfl
@[simp] theorem State.stage_setSignalled (s : State) (p : Port) (m : DevSet) :
    (s.setSignalled p m).stage = s.stage := rfl
@[simp] theorem State.sources_setSignalled (s : State) (p : Port) (m : DevSet) :
    (s.setSignalled p m).sources = s.sources := rfl
@[simp] theorem State.notices_setSignalled (s : State) (p : Port) (m : DevSet) :
    (s.setSignalled p m).notices = s.notices := rfl
@[simp] theorem State.delivery_setSignalled (s : State) (p : Port) (m : DevSet) :
    (s.setSignalled p m).delivery = s.delivery := rfl
@[simp] theorem State.bus_setSignalled (s : State) (p : Port) (m : DevSet) : (s.setSignalled p m).bus = s.bus := rfl
@[simp] theorem State.engines_setSignalled (s : State) (p : Port) (m : DevSet) :
    (s.setSignalled p m).engines = s.engines := rfl
@[simp] theorem State.config_setSignalled (s : State) (p : Port) (m : DevSet) :
    (s.setSignalled p m).config = s.config := rfl
@[simp] theorem State.free_setSignalled (s : State) (p : Port) (m : DevSet) : (s.setSignalled p m).free = s.free := rfl
@[simp] theorem State.src_setSignalled (s : State) (p : Port) (m : DevSet) (j : Src) :
    (s.setSignalled p m).src j = s.src j := rfl
@[simp] theorem State.line_setSignalled (s : State) (p : Port) (m : DevSet) (j : Fin 8) :
    (s.setSignalled p m).line j = s.line j := rfl
@[simp] theorem State.notice_setSignalled (s : State) (p : Port) (m : DevSet) (j : Src) :
    (s.setSignalled p m).notice j = s.notice j := rfl
@[simp] theorem State.stranded_setSignalled (s : State) (p : Port) (m : DevSet) :
    (s.setSignalled p m).stranded = s.stranded := rfl
@[simp] theorem State.queue_setSignalled (s : State) (p : Port) (m : DevSet) (x : Port) :
    (s.setSignalled p m).queue x = s.queue x := rfl
@[simp] theorem State.eng_setSignalled (s : State) (p : Port) (m : DevSet) (x : Port) :
    (s.setSignalled p m).eng x = s.eng x := rfl
@[simp] theorem State.latched_setSignalled (s : State) (p : Port) (m : DevSet) (x : Port) :
    (s.setSignalled p m).latched x = s.latched x := rfl
@[simp] theorem State.signalled_setSignalled (s : State) (p : Port) (m : DevSet) (x : Port) :
    (s.setSignalled p m).signalled x = if p = x then m else s.signalled x := by
  simp [State.signalled, State.setSignalled]
@[simp] theorem State.cfg_setSignalled (s : State) (p : Port) (m : DevSet) (j : Src) :
    (s.setSignalled p m).cfg j = s.cfg j := rfl
@[simp] theorem State.clsCfg_setSignalled (s : State) (p : Port) (m : DevSet) (j : Fin 8) :
    (s.setSignalled p m).clsCfg j = s.clsCfg j := rfl
@[simp] theorem State.portCfg_setSignalled (s : State) (p : Port) (m : DevSet) (x : Port) :
    (s.setSignalled p m).portCfg x = s.portCfg x := rfl

@[simp] theorem State.pending_setCfg (s : State) (i : Src) (c : SourceCfg) : (s.setCfg i c).pending = s.pending := rfl
@[simp] theorem State.stage_setCfg (s : State) (i : Src) (c : SourceCfg) : (s.setCfg i c).stage = s.stage := rfl
@[simp] theorem State.sources_setCfg (s : State) (i : Src) (c : SourceCfg) : (s.setCfg i c).sources = s.sources := rfl
@[simp] theorem State.notices_setCfg (s : State) (i : Src) (c : SourceCfg) : (s.setCfg i c).notices = s.notices := rfl
@[simp] theorem State.delivery_setCfg (s : State) (i : Src) (c : SourceCfg) :
    (s.setCfg i c).delivery = s.delivery := rfl
@[simp] theorem State.bus_setCfg (s : State) (i : Src) (c : SourceCfg) : (s.setCfg i c).bus = s.bus := rfl
@[simp] theorem State.engines_setCfg (s : State) (i : Src) (c : SourceCfg) : (s.setCfg i c).engines = s.engines := rfl
@[simp] theorem State.attention_setCfg (s : State) (i : Src) (c : SourceCfg) :
    (s.setCfg i c).attention = s.attention := rfl
@[simp] theorem State.free_setCfg (s : State) (i : Src) (c : SourceCfg) : (s.setCfg i c).free = s.free := rfl
@[simp] theorem State.src_setCfg (s : State) (i : Src) (c : SourceCfg) (j : Src) : (s.setCfg i c).src j = s.src j := rfl
@[simp] theorem State.line_setCfg (s : State) (i : Src) (c : SourceCfg) (j : Fin 8) :
    (s.setCfg i c).line j = s.line j := rfl
@[simp] theorem State.notice_setCfg (s : State) (i : Src) (c : SourceCfg) (j : Src) :
    (s.setCfg i c).notice j = s.notice j := rfl
@[simp] theorem State.stranded_setCfg (s : State) (i : Src) (c : SourceCfg) :
    (s.setCfg i c).stranded = s.stranded := rfl
@[simp] theorem State.queue_setCfg (s : State) (i : Src) (c : SourceCfg) (x : Port) :
    (s.setCfg i c).queue x = s.queue x := rfl
@[simp] theorem State.eng_setCfg (s : State) (i : Src) (c : SourceCfg) (x : Port) :
    (s.setCfg i c).eng x = s.eng x := rfl
@[simp] theorem State.latched_setCfg (s : State) (i : Src) (c : SourceCfg) (x : Port) :
    (s.setCfg i c).latched x = s.latched x := rfl
@[simp] theorem State.signalled_setCfg (s : State) (i : Src) (c : SourceCfg) (x : Port) :
    (s.setCfg i c).signalled x = s.signalled x := rfl
@[simp] theorem State.cfg_setCfg (s : State) (i : Src) (c : SourceCfg) (j : Src) :
    (s.setCfg i c).cfg j = if i = j then c else s.cfg j := by
  simp [State.cfg, State.setCfg]
@[simp] theorem State.clsCfg_setCfg (s : State) (i : Src) (c : SourceCfg) (j : Fin 8) :
    (s.setCfg i c).clsCfg j = s.clsCfg j := rfl
@[simp] theorem State.portCfg_setCfg (s : State) (i : Src) (c : SourceCfg) (x : Port) :
    (s.setCfg i c).portCfg x = s.portCfg x := rfl

@[simp] theorem State.pending_setClsCfg (s : State) (k : Fin 8) (c : ClassCfg) :
    (s.setClsCfg k c).pending = s.pending := rfl
@[simp] theorem State.stage_setClsCfg (s : State) (k : Fin 8) (c : ClassCfg) : (s.setClsCfg k c).stage = s.stage := rfl
@[simp] theorem State.sources_setClsCfg (s : State) (k : Fin 8) (c : ClassCfg) :
    (s.setClsCfg k c).sources = s.sources := rfl
@[simp] theorem State.notices_setClsCfg (s : State) (k : Fin 8) (c : ClassCfg) :
    (s.setClsCfg k c).notices = s.notices := rfl
@[simp] theorem State.delivery_setClsCfg (s : State) (k : Fin 8) (c : ClassCfg) :
    (s.setClsCfg k c).delivery = s.delivery := rfl
@[simp] theorem State.bus_setClsCfg (s : State) (k : Fin 8) (c : ClassCfg) : (s.setClsCfg k c).bus = s.bus := rfl
@[simp] theorem State.engines_setClsCfg (s : State) (k : Fin 8) (c : ClassCfg) :
    (s.setClsCfg k c).engines = s.engines := rfl
@[simp] theorem State.attention_setClsCfg (s : State) (k : Fin 8) (c : ClassCfg) :
    (s.setClsCfg k c).attention = s.attention := rfl
@[simp] theorem State.free_setClsCfg (s : State) (k : Fin 8) (c : ClassCfg) : (s.setClsCfg k c).free = s.free := rfl
@[simp] theorem State.src_setClsCfg (s : State) (k : Fin 8) (c : ClassCfg) (j : Src) :
    (s.setClsCfg k c).src j = s.src j := rfl
@[simp] theorem State.line_setClsCfg (s : State) (k : Fin 8) (c : ClassCfg) (j : Fin 8) :
    (s.setClsCfg k c).line j = s.line j := rfl
@[simp] theorem State.notice_setClsCfg (s : State) (k : Fin 8) (c : ClassCfg) (j : Src) :
    (s.setClsCfg k c).notice j = s.notice j := rfl
@[simp] theorem State.stranded_setClsCfg (s : State) (k : Fin 8) (c : ClassCfg) :
    (s.setClsCfg k c).stranded = s.stranded := rfl
@[simp] theorem State.queue_setClsCfg (s : State) (k : Fin 8) (c : ClassCfg) (x : Port) :
    (s.setClsCfg k c).queue x = s.queue x := rfl
@[simp] theorem State.eng_setClsCfg (s : State) (k : Fin 8) (c : ClassCfg) (x : Port) :
    (s.setClsCfg k c).eng x = s.eng x := rfl
@[simp] theorem State.latched_setClsCfg (s : State) (k : Fin 8) (c : ClassCfg) (x : Port) :
    (s.setClsCfg k c).latched x = s.latched x := rfl
@[simp] theorem State.signalled_setClsCfg (s : State) (k : Fin 8) (c : ClassCfg) (x : Port) :
    (s.setClsCfg k c).signalled x = s.signalled x := rfl
@[simp] theorem State.cfg_setClsCfg (s : State) (k : Fin 8) (c : ClassCfg) (j : Src) :
    (s.setClsCfg k c).cfg j = s.cfg j := rfl
@[simp] theorem State.clsCfg_setClsCfg (s : State) (k : Fin 8) (c : ClassCfg) (j : Fin 8) :
    (s.setClsCfg k c).clsCfg j = if k = j then c else s.clsCfg j := by
  simp [State.clsCfg, State.setClsCfg]
@[simp] theorem State.portCfg_setClsCfg (s : State) (k : Fin 8) (c : ClassCfg) (x : Port) :
    (s.setClsCfg k c).portCfg x = s.portCfg x := rfl

@[simp] theorem State.pending_setPortCfg (s : State) (p : Port) (c : PortCfg) :
    (s.setPortCfg p c).pending = s.pending := rfl
@[simp] theorem State.stage_setPortCfg (s : State) (p : Port) (c : PortCfg) : (s.setPortCfg p c).stage = s.stage := rfl
@[simp] theorem State.sources_setPortCfg (s : State) (p : Port) (c : PortCfg) :
    (s.setPortCfg p c).sources = s.sources := rfl
@[simp] theorem State.notices_setPortCfg (s : State) (p : Port) (c : PortCfg) :
    (s.setPortCfg p c).notices = s.notices := rfl
@[simp] theorem State.delivery_setPortCfg (s : State) (p : Port) (c : PortCfg) :
    (s.setPortCfg p c).delivery = s.delivery := rfl
@[simp] theorem State.bus_setPortCfg (s : State) (p : Port) (c : PortCfg) : (s.setPortCfg p c).bus = s.bus := rfl
@[simp] theorem State.engines_setPortCfg (s : State) (p : Port) (c : PortCfg) :
    (s.setPortCfg p c).engines = s.engines := rfl
@[simp] theorem State.attention_setPortCfg (s : State) (p : Port) (c : PortCfg) :
    (s.setPortCfg p c).attention = s.attention := rfl
@[simp] theorem State.free_setPortCfg (s : State) (p : Port) (c : PortCfg) : (s.setPortCfg p c).free = s.free := rfl
@[simp] theorem State.src_setPortCfg (s : State) (p : Port) (c : PortCfg) (j : Src) :
    (s.setPortCfg p c).src j = s.src j := rfl
@[simp] theorem State.line_setPortCfg (s : State) (p : Port) (c : PortCfg) (j : Fin 8) :
    (s.setPortCfg p c).line j = s.line j := rfl
@[simp] theorem State.notice_setPortCfg (s : State) (p : Port) (c : PortCfg) (j : Src) :
    (s.setPortCfg p c).notice j = s.notice j := rfl
@[simp] theorem State.stranded_setPortCfg (s : State) (p : Port) (c : PortCfg) :
    (s.setPortCfg p c).stranded = s.stranded := rfl
@[simp] theorem State.queue_setPortCfg (s : State) (p : Port) (c : PortCfg) (x : Port) :
    (s.setPortCfg p c).queue x = s.queue x := rfl
@[simp] theorem State.eng_setPortCfg (s : State) (p : Port) (c : PortCfg) (x : Port) :
    (s.setPortCfg p c).eng x = s.eng x := rfl
@[simp] theorem State.latched_setPortCfg (s : State) (p : Port) (c : PortCfg) (x : Port) :
    (s.setPortCfg p c).latched x = s.latched x := rfl
@[simp] theorem State.signalled_setPortCfg (s : State) (p : Port) (c : PortCfg) (x : Port) :
    (s.setPortCfg p c).signalled x = s.signalled x := rfl
@[simp] theorem State.cfg_setPortCfg (s : State) (p : Port) (c : PortCfg) (j : Src) :
    (s.setPortCfg p c).cfg j = s.cfg j := rfl
@[simp] theorem State.clsCfg_setPortCfg (s : State) (p : Port) (c : PortCfg) (j : Fin 8) :
    (s.setPortCfg p c).clsCfg j = s.clsCfg j := rfl
@[simp] theorem State.portCfg_setPortCfg (s : State) (p : Port) (c : PortCfg) (x : Port) :
    (s.setPortCfg p c).portCfg x = if p = x then c else s.portCfg x := by
  simp [State.portCfg, State.setPortCfg]

@[simp] theorem State.pending_setBus (s : State) (b : FieldBus) : (s.setBus b).pending = s.pending := rfl
@[simp] theorem State.stage_setBus (s : State) (b : FieldBus) : (s.setBus b).stage = s.stage := rfl
@[simp] theorem State.sources_setBus (s : State) (b : FieldBus) : (s.setBus b).sources = s.sources := rfl
@[simp] theorem State.notices_setBus (s : State) (b : FieldBus) : (s.setBus b).notices = s.notices := rfl
@[simp] theorem State.delivery_setBus (s : State) (b : FieldBus) : (s.setBus b).delivery = s.delivery := rfl
@[simp] theorem State.engines_setBus (s : State) (b : FieldBus) : (s.setBus b).engines = s.engines := rfl
@[simp] theorem State.attention_setBus (s : State) (b : FieldBus) : (s.setBus b).attention = s.attention := rfl
@[simp] theorem State.config_setBus (s : State) (b : FieldBus) : (s.setBus b).config = s.config := rfl
@[simp] theorem State.free_setBus (s : State) (b : FieldBus) : (s.setBus b).free = s.free := rfl
@[simp] theorem State.src_setBus (s : State) (b : FieldBus) (j : Src) : (s.setBus b).src j = s.src j := rfl
@[simp] theorem State.line_setBus (s : State) (b : FieldBus) (j : Fin 8) : (s.setBus b).line j = s.line j := rfl
@[simp] theorem State.notice_setBus (s : State) (b : FieldBus) (j : Src) : (s.setBus b).notice j = s.notice j := rfl
@[simp] theorem State.stranded_setBus (s : State) (b : FieldBus) : (s.setBus b).stranded = s.stranded := rfl
@[simp] theorem State.queue_setBus (s : State) (b : FieldBus) (x : Port) : (s.setBus b).queue x = s.queue x := rfl
@[simp] theorem State.eng_setBus (s : State) (b : FieldBus) (x : Port) : (s.setBus b).eng x = s.eng x := rfl
@[simp] theorem State.latched_setBus (s : State) (b : FieldBus) (x : Port) : (s.setBus b).latched x = s.latched x := rfl
@[simp] theorem State.signalled_setBus (s : State) (b : FieldBus) (x : Port) :
    (s.setBus b).signalled x = s.signalled x := rfl
@[simp] theorem State.cfg_setBus (s : State) (b : FieldBus) (j : Src) : (s.setBus b).cfg j = s.cfg j := rfl
@[simp] theorem State.clsCfg_setBus (s : State) (b : FieldBus) (j : Fin 8) : (s.setBus b).clsCfg j = s.clsCfg j := rfl
@[simp] theorem State.portCfg_setBus (s : State) (b : FieldBus) (x : Port) : (s.setBus b).portCfg x = s.portCfg x := rfl
@[simp] theorem State.bus_setBus (s : State) (b : FieldBus) : (s.setBus b).bus = b := rfl

@[simp] theorem State.setEng_eng (s : State) (p : Port) : s.setEng p (s.eng p) = s := by
  simp [State.setEng, State.eng]

@[simp] theorem State.setBus_bus (s : State) : s.setBus s.bus = s := rfl

@[simp] theorem State.setPass_self (s : State) : s.setPass s.delivery.passList s.delivery.passPending = s := rfl

@[simp] theorem State.setQueue_queue (s : State) (p : Port) : s.setQueue p (s.queue p) = s := by
  simp [State.setQueue, State.queue]

@[simp] theorem State.setEng_setEng (s : State) (p : Port) (d e : PortEngine) :
    (s.setEng p d).setEng p e = s.setEng p e := by
  cases p <;> rfl

end Machine

end Sys2Proof
end

