-- ==== Sys2Proof/Laws/Ops.lean ====
section
/-! SUPPORT. What each shared operation can change, said once: an operation keeps the parts of the state that its lemma
names, and the small facts about queues, orders and latching that proofs cite in place of the definitions. -/

namespace Sys2Proof.Machine

/-! ### Folds -/

/-- A part of the state that one round keeps is kept by all. -/
theorem foldl_keeps {α β : Type} (f : State → β) (op : State → α → State) (h : ∀ t x, f (op t x) = f t) (l : List α)
    (s : State) : f (l.foldl op s) = f s := by
  induction l generalizing s with
  | nil => rfl
  | cons x l ih => exact (ih (op s x)).trans (h s x)

/-! ### Parts of the state -/

/-- All but the notices, the queues and the latched sets. -/
def State.offNotices (s : State) : List Instr × Stage × SourceUnit × FieldBus × PerPort PortEngine × ConfigUnit × Nat :=
  (s.pending, s.stage, s.sources, s.bus, s.engines, s.config, s.free)

/-- All but the sources, the notices, the queues and the latched sets. -/
def State.offSources (s : State) : List Instr × Stage × FieldBus × PerPort PortEngine × ConfigUnit × Nat :=
  (s.pending, s.stage, s.bus, s.engines, s.config, s.free)

/-- All but the notices, the queues, the port engines and the latched sets. -/
def State.offLinks (s : State) : List Instr × Stage × SourceUnit × FieldBus × ConfigUnit × Nat :=
  (s.pending, s.stage, s.sources, s.bus, s.config, s.free)

/-- All but the port engines. -/
def State.offEngines (s : State) :
    List Instr × Stage × SourceUnit × NoticeTable × DeliveryUnit × FieldBus × Attention × ConfigUnit × Nat :=
  (s.pending, s.stage, s.sources, s.notices, s.delivery, s.bus, s.attention, s.config, s.free)

/-- All but the delivery unit. -/
def State.offDelivery (s : State) :
    List Instr × Stage × SourceUnit × NoticeTable × FieldBus × PerPort PortEngine × Attention × ConfigUnit × Nat :=
  (s.pending, s.stage, s.sources, s.notices, s.bus, s.engines, s.attention, s.config, s.free)

/-- All but the stage and the field bus. -/
def State.offBus (s : State) :
    List Instr × SourceUnit × NoticeTable × DeliveryUnit × PerPort PortEngine × Attention × ConfigUnit × Nat :=
  (s.pending, s.sources, s.notices, s.delivery, s.engines, s.attention, s.config, s.free)

theorem offNotices_fields {s t : State} (h : t.offNotices = s.offNotices) :
    t.pending = s.pending ∧ t.stage = s.stage ∧ t.sources = s.sources ∧ t.bus = s.bus ∧ t.engines = s.engines ∧
      t.config = s.config ∧ t.free = s.free := by
  simpa [State.offNotices] using h

theorem offSources_fields {s t : State} (h : t.offSources = s.offSources) :
    t.pending = s.pending ∧ t.stage = s.stage ∧ t.bus = s.bus ∧ t.engines = s.engines ∧ t.config = s.config ∧
      t.free = s.free := by
  simpa [State.offSources] using h

theorem offLinks_fields {s t : State} (h : t.offLinks = s.offLinks) :
    t.pending = s.pending ∧ t.stage = s.stage ∧ t.sources = s.sources ∧ t.bus = s.bus ∧ t.config = s.config ∧
      t.free = s.free := by
  simpa [State.offLinks] using h

theorem offSources_of_offNotices {s t : State} (h : t.offNotices = s.offNotices) : t.offSources = s.offSources := by
  obtain ⟨h1, h2, _, h3, h4, h5, h6⟩ := offNotices_fields h
  simp only [State.offSources, h1, h2, h3, h4, h5, h6]

theorem offLinks_of_offNotices {s t : State} (h : t.offNotices = s.offNotices) : t.offLinks = s.offLinks := by
  obtain ⟨h1, h2, h3, h4, _, h5, h6⟩ := offNotices_fields h
  simp only [State.offLinks, h1, h2, h3, h4, h5, h6]

theorem offNotices_of_offDelivery {s t : State} (h : t.offDelivery = s.offDelivery) :
    t.offNotices = s.offNotices := by
  simp only [State.offDelivery, Prod.mk.injEq] at h
  obtain ⟨h1, h2, h3, _, h4, h5, _, h6, h7⟩ := h
  simp only [State.offNotices, h1, h2, h3, h4, h5, h6, h7]

theorem offLinks_of_offEngines {s t : State} (h : t.offEngines = s.offEngines) : t.offLinks = s.offLinks := by
  simp only [State.offEngines, Prod.mk.injEq] at h
  obtain ⟨h1, h2, h3, _, _, h4, _, h5, h6⟩ := h
  simp only [State.offLinks, h1, h2, h3, h4, h5, h6]

/-! ### Latching (R163, R165) -/

@[simp] theorem latchRisen_latched (old new : State) (p : Port) :
    (State.latchRisen old new).latched p = new.latched p ||| risen old new p := by
  simp [State.latchRisen, State.latched]

@[simp] theorem latchRisen_signalled (old new : State) (p : Port) :
    (State.latchRisen old new).signalled p = new.signalled p &&& ~~~(risen old new p) := by
  simp [State.latchRisen, State.signalled]

theorem latchRisen_offNotices (old new : State) : (State.latchRisen old new).offNotices = new.offNotices := rfl

@[simp] theorem latchRisen_notices (old new : State) : (State.latchRisen old new).notices = new.notices := rfl
@[simp] theorem latchRisen_delivery (old new : State) : (State.latchRisen old new).delivery = new.delivery := rfl
@[simp] theorem latchRisen_engines (old new : State) : (State.latchRisen old new).engines = new.engines := rfl
@[simp] theorem latchRisen_bus (old new : State) : (State.latchRisen old new).bus = new.bus := rfl

@[simp] theorem gain_latched (s : State) (p q : Port) (codes : DevSet) :
    (s.gain p codes).latched q = if p = q then s.latched p ||| codes else s.latched q := by
  simp [State.gain]

theorem gain_offNotices (s : State) (p : Port) (codes : DevSet) : (s.gain p codes).offNotices = s.offNotices := rfl

/-! ### Small updates -/

theorem modNotice_notice (s : State) (i j : Src) (f : Notice → Notice) :
    (s.modNotice i f).notice j = if i = j then (s.notice i).map f else s.notice j := by
  unfold State.modNotice
  split
  · rename_i h
    split
    · subst_vars
      rw [h]
      rfl
    · rfl
  · rename_i n h
    rw [State.notice_setNotice, h]
    rfl

theorem modNotice_rest (s : State) (i : Src) (f : Notice → Notice) :
    (s.modNotice i f).offNotices = s.offNotices ∧ (s.modNotice i f).delivery = s.delivery ∧
      (s.modNotice i f).attention = s.attention ∧ (s.modNotice i f).stranded = s.stranded := by
  unfold State.modNotice
  split <;> exact ⟨rfl, rfl, rfl, rfl⟩

@[simp] theorem modNotice_queue (s : State) (i : Src) (f : Notice → Notice) (p : Port) :
    (s.modNotice i f).queue p = s.queue p := by
  unfold State.modNotice
  split <;> rfl

theorem modNotice_some {s : State} {i : Src} {n : Notice} (h : s.notice i = some n) (f : Notice → Notice) :
    (s.modNotice i f).notice i = some (f n) := by
  rw [modNotice_notice, if_pos rfl, h]
  rfl

@[simp] theorem respond_eng (s : State) (p q : Port) (r : Response) :
    (s.respond p r).eng q =
      if p = q then { s.eng p with responses := (s.eng p).responses ++ [r] } else s.eng q := by
  simp [State.respond]

theorem respond_offEngines (s : State) (p : Port) (r : Response) : (s.respond p r).offEngines = s.offEngines := rfl

@[simp] theorem withdraw_eng (s : State) (p q : Port) (w : Withdrawal) :
    (s.withdraw p w).eng q =
      if p = q then { s.eng p with withdrawals := (s.eng p).withdrawals ++ [w] } else s.eng q := by
  simp [State.withdraw]

theorem withdraw_offEngines (s : State) (p : Port) (w : Withdrawal) : (s.withdraw p w).offEngines = s.offEngines := rfl

theorem withdrawAll_offEngines (s : State) (i : Src) (n : Notice) (r : Reason) :
    (s.withdrawAll i n r).offEngines = s.offEngines := by
  refine foldl_keeps State.offEngines _ (fun t p => ?_) _ s
  split
  · exact withdraw_offEngines _ _ _
  · rfl

/-! ### Orders -/

theorem insertByKey_perm {α : Type} (key : α → Nat × Nat) (x : α) (l : List α) :
    (insertByKey key x l).Perm (x :: l) := by
  induction l with
  | nil => exact List.Perm.refl _
  | cons y l ih =>
    unfold insertByKey
    split
    · exact (ih.cons y).trans (List.Perm.swap x y l)
    · exact List.Perm.refl _

@[simp] theorem mem_insertByKey {α : Type} (key : α → Nat × Nat) (x y : α) (l : List α) :
    y ∈ insertByKey key x l ↔ y = x ∨ y ∈ l := by
  rw [(insertByKey_perm key x l).mem_iff, List.mem_cons]

@[simp] theorem length_insertByKey {α : Type} (key : α → Nat × Nat) (x : α) (l : List α) :
    (insertByKey key x l).length = l.length + 1 :=
  (insertByKey_perm key x l).length_eq

theorem sortByKey_perm {α : Type} (key : α → Nat × Nat) (l : List α) : (sortByKey key l).Perm l := by
  induction l with
  | nil => exact List.Perm.refl _
  | cons x l ih => exact (insertByKey_perm key x _).trans (ih.cons x)

theorem keyBefore_trans {a b c : Nat × Nat} (h : keyBefore b a = false) (k : keyBefore c b = false) :
    keyBefore c a = false := by
  simp only [keyBefore, Bool.or_eq_false_iff, Bool.and_eq_false_iff, decide_eq_false_iff_not, beq_eq_false_iff_ne,
    ne_eq] at *
  omega

theorem keyBefore_asymm {a b : Nat × Nat} (h : keyBefore a b = true) : keyBefore b a = false := by
  simp only [keyBefore, Bool.or_eq_false_iff, Bool.or_eq_true, Bool.and_eq_true, Bool.and_eq_false_iff,
    decide_eq_true_eq, beq_iff_eq, decide_eq_false_iff_not, beq_eq_false_iff_ne, ne_eq] at *
  omega

/-- Inserting by key keeps a list in the order of its keys. -/
theorem insertByKey_sorted {α : Type} (key : α → Nat × Nat) (x : α) {l : List α}
    (h : l.Pairwise (fun a b => keyBefore (key b) (key a) = false)) :
    (insertByKey key x l).Pairwise (fun a b => keyBefore (key b) (key a) = false) := by
  induction l with
  | nil => exact List.pairwise_singleton _ _
  | cons y l ih =>
    rw [List.pairwise_cons] at h
    unfold insertByKey
    split
    · rename_i hlt
      refine List.pairwise_cons.mpr ⟨fun z hz => ?_, ih h.2⟩
      rcases (mem_insertByKey key x z l).mp hz with rfl | hz
      · exact keyBefore_asymm hlt
      · exact h.1 z hz
    · rename_i hlt
      have hxy : keyBefore (key y) (key x) = false := by simpa using hlt
      refine List.pairwise_cons.mpr ⟨fun z hz => ?_, List.pairwise_cons.mpr h⟩
      rcases List.mem_cons.mp hz with rfl | hz
      · exact hxy
      · exact keyBefore_trans hxy (h.1 z hz)

theorem sortByKey_sorted {α : Type} (key : α → Nat × Nat) (l : List α) :
    (sortByKey key l).Pairwise (fun a b => keyBefore (key b) (key a) = false) := by
  induction l with
  | nil => exact List.Pairwise.nil
  | cons x l ih => exact insertByKey_sorted key x ih

/-! ### The re-placement pass -/

theorem triggerPass_offDelivery (s : State) : s.triggerPass.offDelivery = s.offDelivery := by
  unfold State.triggerPass
  split <;> rfl

@[simp] theorem triggerPass_queue (s : State) (p : Port) : s.triggerPass.queue p = s.queue p := by
  unfold State.triggerPass
  split <;> rfl

theorem triggerIf_offDelivery (s : State) (c : Bool) : (s.triggerIf c).offDelivery = s.offDelivery := by
  unfold State.triggerIf
  split
  · exact triggerPass_offDelivery s
  · rfl

theorem endPass_offDelivery (s : State) : s.endPass.offDelivery = s.offDelivery := by
  unfold State.endPass
  repeat' split
  all_goals rfl

@[simp] theorem endPass_queue (s : State) (p : Port) : s.endPass.queue p = s.queue p := by
  unfold State.endPass
  repeat' split
  all_goals rfl

/-! ### References and walks -/

theorem hasPlace_iff (s : State) (i : Src) :
    s.hasPlace i = true ↔ (∃ p, i ∈ s.queue p) ∨ ∃ n p, s.notice i = some n ∧ n.offers.has p = true := by
  unfold State.hasPlace
  rw [Bool.or_eq_true]
  refine or_congr ?_ ?_
  · rw [List.any_eq_true]
    constructor
    · rintro ⟨p, _, h⟩
      exact ⟨p, List.contains_iff_mem.mp h⟩
    · rintro ⟨p, h⟩
      exact ⟨p, mem_portAll p, List.contains_iff_mem.mpr h⟩
  · cases s.notice i with
    | none => simp
    | some n =>
      constructor
      · intro h
        by_contra hno
        push Not at hno
        have hall : ∀ p, n.offers.has p = false := fun p => by simpa using hno n p rfl
        dsimp only at h
        rw [(PortSet.isEmpty_iff n.offers).mpr hall] at h
        exact absurd h (by decide)
      · rintro ⟨m, p, hm, hp⟩
        cases hm
        dsimp only
        rw [Bool.not_eq_true']
        by_contra hne
        have := (PortSet.isEmpty_iff n.offers).mp (by simpa using hne) p
        rw [hp] at this
        exact absurd this (by decide)

theorem removeRef_offDelivery (s : State) (i : Src) (p : Port) : (s.removeRef i p).offDelivery = s.offDelivery := by
  unfold State.removeRef
  split
  · dsimp only
    split
    · exact (triggerPass_offDelivery _).trans rfl
    · rfl
  · rfl

/-- A removal takes the reference out of the one queue. -/
theorem removeRef_queue (s : State) (i : Src) (p q : Port) :
    (s.removeRef i p).queue q = if p = q then (s.queue p).filter (fun j => j != i) else s.queue q := by
  unfold State.removeRef
  split
  · dsimp only
    split
    · rw [triggerPass_queue, State.queue_setQueue]
    · rw [State.queue_setQueue]
  · rename_i h
    split
    · subst_vars
      refine (List.filter_eq_self.mpr fun j hj => ?_).symm
      rw [bne_iff_ne]
      rintro rfl
      exact h (List.contains_iff_mem.mpr hj)
    · rfl

theorem removeRefs_offDelivery (s : State) (i : Src) : (s.removeRefs i).offDelivery = s.offDelivery :=
  foldl_keeps State.offDelivery _ (fun t p => removeRef_offDelivery t i p) _ s

theorem removeRefs_queue (s : State) (i : Src) (q : Port) :
    (s.removeRefs i).queue q = (s.queue q).filter (fun j => j != i) := by
  simp only [State.removeRefs, Port.all, List.foldl, removeRef_queue]
  cases q <;> simp

theorem insertRef_rest (s : State) (p : Port) (i : Src) :
    (s.insertRef p i).offNotices = s.offNotices ∧ (s.insertRef p i).notices = s.notices := ⟨rfl, rfl⟩

theorem insertRef_queue (s : State) (p q : Port) (i : Src) :
    (s.insertRef p i).queue q = if p = q then insertByKey s.queueKey i (s.queue p) else s.queue q := by
  show (s.setQueue p (insertByKey s.queueKey i (s.queue p))).queue q = _
  rw [State.queue_setQueue]

theorem giveRef_offNotices (s : State) (i : Src) (p : Port) : (s.giveRef i p).offNotices = s.offNotices := by
  unfold State.giveRef
  exact (modNotice_rest (s.insertRef p i) i _).1.trans (insertRef_rest s p i).1

theorem strand_offNotices (s : State) (i : Src) : (s.strand i).offNotices = s.offNotices := by
  unfold State.strand
  exact (modNotice_rest s i _).1

theorem placeRefs_offNotices (s : State) (i : Src) (n : Notice) : (s.placeRefs i n).offNotices = s.offNotices := by
  unfold State.placeRefs
  split
  · split
    · exact giveRef_offNotices s i _
    · rfl
  · refine foldl_keeps State.offNotices _ (fun t p => ?_) _ s
    split
    · exact giveRef_offNotices t i p
    · rfl

/-- A walk changes notices, queues and latched sets alone (R83 to R87). -/
theorem walk_offNotices (s : State) (i : Src) : (s.walk i).offNotices = s.offNotices := by
  unfold State.walk
  split
  · rfl
  · dsimp only
    split
    · exact placeRefs_offNotices s i _
    · exact (strand_offNotices _ i).trans (placeRefs_offNotices s i _)

theorem walkIfBare_offNotices (s : State) (i : Src) : (s.walkIfBare i).offNotices = s.offNotices := by
  unfold State.walkIfBare
  split
  · rfl
  · exact walk_offNotices s i

theorem eraseNotice_offNotices (s : State) (i : Src) : (s.eraseNotice i).offNotices = s.offNotices := by
  have h := offNotices_of_offDelivery (removeRefs_offDelivery s i)
  unfold State.eraseNotice
  generalize s.removeRefs i = t at h ⊢
  exact h

/-- An erased notice is found nowhere. -/
theorem eraseNotice_gone (s : State) (i : Src) :
    (s.eraseNotice i).notice i = none ∧ (∀ p, i ∉ (s.eraseNotice i).queue p) ∧ i ∉ (s.eraseNotice i).stranded := by
  refine ⟨?_, fun p => ?_, ?_⟩
  · show ((s.removeRefs i).setNotice i none).notice i = none
    rw [State.notice_setNotice, if_pos rfl]
  · show i ∉ (s.removeRefs i).queue p
    rw [removeRefs_queue]
    simp
  · show i ∉ s.stranded.filter (fun j => j != i)
    simp

theorem prunePass_offDelivery (s : State) (i : Src) : (s.prunePass i).offDelivery = s.offDelivery := by
  unfold State.prunePass
  split
  · exact (endPass_offDelivery _).trans rfl
  · rfl

@[simp] theorem prunePass_queue (s : State) (i : Src) (p : Port) : (s.prunePass i).queue p = s.queue p := by
  unfold State.prunePass
  split
  · rw [endPass_queue, State.queue_setPass]
  · rfl

/-- The end of a notice changes notices, queues and port engines alone (R56). -/
theorem endNotice_offLinks (s : State) (i : Src) (r : Option Reason) : (s.endNotice i r).offLinks = s.offLinks := by
  have erased (t : State) : ((t.eraseNotice i).prunePass i).offLinks = t.offLinks :=
    offLinks_of_offNotices ((offNotices_of_offDelivery (prunePass_offDelivery _ i)).trans (eraseNotice_offNotices t i))
  unfold State.endNotice
  split
  · rfl
  · exact (erased _).trans (offLinks_of_offEngines (withdrawAll_offEngines _ _ _ _))
  · exact erased s

/-! ### Openings, reports and failed exchanges -/

theorem openNotice_offSources (s : State) (i : Src) (conds : CodeSet) :
    (s.openNotice i conds).offSources = s.offSources := by
  unfold State.openNotice
  exact (offSources_of_offNotices (walk_offNotices _ i)).trans rfl

theorem applyConditions_offSources (s : State) (i : Src) (new : CodeSet) :
    (s.applyConditions i new).offSources = s.offSources := by
  unfold State.applyConditions
  split
  · rfl
  · split
    · rfl
    · exact openNotice_offSources s i new
  · split
    · rfl
    · split <;> rfl
  · rfl

/-- A report changes sources, notices, queues and latched sets alone (R10, R11). -/
theorem reportArrival_offSources (s : State) (i : Src) (report : CodeSet) :
    (s.reportArrival i report).offSources = s.offSources := by
  unfold State.reportArrival
  split
  · rfl
  · exact (applyConditions_offSources _ i _).trans rfl

theorem failedExchange_offSources (s : State) (i : Src) : (s.failedExchange i).offSources = s.offSources := by
  unfold State.failedExchange
  dsimp only
  split
  · rfl
  · split
    · exact (applyConditions_offSources _ i _).trans rfl
    · split <;> rfl

theorem outcomeAfterClearAll_offSources (s : State) (i : Src) (good : Bool) :
    (s.outcomeAfterClearAll i good).offSources = s.offSources := by
  unfold State.outcomeAfterClearAll
  dsimp only
  repeat' split
  all_goals rfl

theorem handOutcome_offSources (s : State) (t : InFlight) (i : Src) (o : BusOutcome) :
    (s.handOutcome t i o).offSources = s.offSources := by
  unfold State.handOutcome
  cases o <;> dsimp only <;> split
  all_goals first
    | exact outcomeAfterClearAll_offSources s i _
    | exact reportArrival_offSources s i _
    | exact failedExchange_offSources s i

theorem clearCompletion_offSources (s : State) (i : Src) (report : CodeSet) :
    (s.clearCompletion i report).offSources = s.offSources := by
  unfold State.clearCompletion
  dsimp only
  split
  · rfl
  · exact (openNotice_offSources _ i _).trans rfl

theorem lineQuery_offSources (s : State) (k : Fin 8) : (s.lineQuery k).offSources = s.offSources := by
  unfold State.lineQuery
  dsimp only
  split
  · rfl
  · split
    · exact (reportArrival_offSources _ _ _).trans rfl
    · rfl

/-! ### The field bus -/

theorem advanceScan_offBus (s : State) : s.advanceScan.offBus = s.offBus := by
  unfold State.advanceScan
  dsimp only
  repeat' split
  all_goals rfl

theorem choose_offBus (s : State) : s.choose.offBus = s.offBus := by
  unfold State.choose
  dsimp only
  repeat' split
  all_goals rfl

/-- A choice of the arbiter changes the stage and the bus alone (R42, R43). -/
theorem arbiter_offBus (s : State) : s.arbiter.offBus = s.offBus := by
  unfold State.arbiter
  split
  · exact (choose_offBus _).trans (advanceScan_offBus s)
  · rfl

/-- A busy bus makes no choice. -/
theorem arbiter_busy {s : State} (h : s.bus.state ≠ .idle) : s.arbiter = s := by
  unfold State.arbiter
  rw [if_neg (fun hc => h hc.1)]

/-! ### The transmitters -/

theorem beginFrame_offLinks (s : State) (p : Port) (lost : Bool) (body : TxBody) :
    (s.beginFrame p lost body).offLinks = s.offLinks ∧ (s.beginFrame p lost body).notices = s.notices ∧
      (s.beginFrame p lost body).delivery = s.delivery := ⟨rfl, rfl, rfl⟩

theorem takeHead_offLinks (s : State) (p : Port) : (s.takeHead p).offLinks = s.offLinks := by
  unfold State.takeHead
  split
  · rfl
  · rename_i i _ _
    split
    · rfl
    · have h := offLinks_of_offNotices (offNotices_of_offDelivery (removeRef_offDelivery s i p))
      dsimp only
      generalize s.removeRef i p = t at h ⊢
      exact h

theorem applyRate_offEngines (s : State) (p : Port) : (s.applyRate p).offEngines = s.offEngines := by
  unfold State.applyRate
  dsimp only
  split
  · split <;> rfl
  · rfl

theorem chooseFrame_offLinks (s : State) (p : Port) : (s.chooseFrame p).offLinks = s.offLinks := by
  unfold State.chooseFrame
  dsimp only
  split
  · split
    · rfl
    · split
      · rfl
      · split
        · exact takeHead_offLinks s p
        · rfl
  · rfl

/-- The transmitters' choice changes notices, queues, port engines and latched sets alone. -/
theorem settle_offLinks (s : State) : s.settle.offLinks = s.offLinks := by
  have port (t : State) (p : Port) : (t.settlePort p).offLinks = t.offLinks :=
    (chooseFrame_offLinks _ p).trans (offLinks_of_offEngines (applyRate_offEngines t p))
  exact (port _ _).trans ((port _ _).trans (port s .A))

/-- A port at rest does nothing at the end of an event. -/
theorem settlePort_of_quiet {s : State} {p : Port} (h : PortQuiet s p) : s.settlePort p = s := by
  have rate : s.applyRate p = s := by
    unfold State.applyRate
    dsimp only
    split
    · rename_i r hr
      split
      · rename_i hidle
        have hq := (h hidle).1
        simp [PortEngine.rateDue, hr] at hq
      · rfl
    · rfl
  unfold State.settlePort
  rw [rate]
  unfold State.chooseFrame
  dsimp only
  split
  · rename_i hc
    obtain ⟨hr, hw, ht⟩ := (h hc.1).2 hc.2
    rw [hr, hw, ht]
    rfl
  · rfl

theorem settle_of_quiet {s : State} (h : ∀ p, PortQuiet s p) : s.settle = s := by
  unfold State.settle
  rw [settlePort_of_quiet (h .A), settlePort_of_quiet (h .B), settlePort_of_quiet (h .C)]

/-! ### The wires of the field bus and the transmit lines (R20, R21, R130) -/

theorem drive_of_idle {s : State} (h : s.bus.state = .idle) (heard : Heard) (n : Nat) :
    s.drive heard n = WireDrive.rest := by
  simp only [State.drive, h]

theorem drive_of_gap {s : State} {r : FieldRate} (h : s.bus.state = .gap r) (heard : Heard) (n : Nat) :
    s.drive heard n = WireDrive.rest := by
  simp only [State.drive, h]

theorem drive_of_inFlight {s : State} {t : InFlight} (h : s.bus.state = .inFlight t) (heard : Heard) (n : Nat) :
    s.drive heard n = t.drive heard n := by
  simp only [State.drive, h]

/-- The halves of the k-th of a list of slots stand at places 2 k and 2 k + 1. -/
theorem slotHalves_at (slots : List (Option Bool)) (k : Nat) :
    (slots.flatMap slotHalves)[2 * k]? =
        slots[k]?.map (fun bit => { fckHigh := false, fdaLow := bit == some false }) ∧
      (slots.flatMap slotHalves)[2 * k + 1]? =
        slots[k]?.map (fun bit => { fckHigh := true, fdaLow := bit == some false }) := by
  induction slots generalizing k with
  | nil => simp
  | cons bit slots ih =>
    cases k with
    | zero => simp [slotHalves]
    | succ k =>
      have h := ih k
      simp only [List.flatMap_cons, slotHalves, List.cons_append, List.nil_append, Nat.mul_add, Nat.mul_one,
        List.getElem?_cons_succ]
      exact h

@[simp] theorem length_slotHalves (slots : List (Option Bool)) :
    (slots.flatMap slotHalves).length = 2 * slots.length := by
  induction slots with
  | nil => rfl
  | cons bit slots ih =>
    simp only [List.flatMap_cons, List.length_append, ih, List.length_cons]
    simp only [slotHalves, List.length_cons, List.length_nil]
    omega

@[simp] theorem length_charLine (c : LinkChar) : (charLine c).length = 11 := by simp [charLine]

/-- Characters back to back: bit j of the k-th character stands at place 11 k + j. -/
theorem charLines_at (bytes : List Byte) (k j : Nat) (hj : j < 11) :
    (bytes.flatMap (fun b => charLine (goodChar b)))[11 * k + j]? =
      bytes[k]?.bind (fun b => (charLine (goodChar b))[j]?) := by
  induction bytes generalizing k with
  | nil => simp
  | cons b bytes ih =>
    rw [List.flatMap_cons]
    cases k with
    | zero =>
      rw [List.getElem?_append_left (by rw [length_charLine]; omega)]
      simp
    | succ k =>
      rw [List.getElem?_append_right (by rw [length_charLine]; omega), length_charLine,
        show 11 * (k + 1) + j - 11 = 11 * k + j by omega, ih k]
      simp

@[simp] theorem length_line (f : TxFrame) : f.line.length = 11 * f.bytes.length := by
  unfold TxFrame.line
  induction f.bytes with
  | nil => rfl
  | cons b bytes ih =>
    simp only [List.flatMap_cons, List.length_append, ih, length_charLine, List.length_cons]
    omega

/-! ### The ports that can take a notice -/

/-- What R84 asks of a port for a reference. -/
theorem eligible_iff (s : State) (i : Src) (n : Notice) (p : Port) : s.eligible i n p = true ↔
    n.tried.has p = false ∧ ((∃ w, (s.eng p).state = .attached w) ∨ ∃ w, (s.eng p).state = .held w) ∧
      (s.portCfg p).classFilter.getLsbD n.cls.val = true ∧ i ∉ s.queue p ∧ n.offers.has p = false ∧
      (s.queue p).length < (s.portCfg p).backlog.toNat := by
  have hon : (s.eng p).state.isOn = true ↔
      (∃ w, (s.eng p).state = .attached w) ∨ ∃ w, (s.eng p).state = .held w := by
    cases (s.eng p).state <;> simp [PortState.isOn]
  unfold State.eligible State.backlogLimit
  simp [hon, and_assoc]

/-- Eligibility depends on the port, its entry and its queue alone. -/
theorem eligible_congr {s t : State} {i : Src} {n : Notice} {p : Port} (h : t.offNotices = s.offNotices)
    (hq : t.queue p = s.queue p) : t.eligible i n p = s.eligible i n p := by
  obtain ⟨_, _, _, _, he, hc, _⟩ := offNotices_fields h
  unfold State.eligible State.eng State.backlogLimit State.portCfg
  rw [he, hc, hq]

/-- For a notice that is neither referenced nor offered at p, R84 asks what `takes` asks. -/
theorem eligible_eq_takes {s : State} {i : Src} {n : Notice} {p : Port} (hq : i ∉ s.queue p)
    (ho : n.offers.has p = false) :
    s.eligible i n p = s.takes n.cls n.tried (fun q => (s.queue q).length) p := by
  unfold State.eligible State.takes State.backlogLimit
  have : (s.queue p).contains i = false := by simpa using hq
  rw [this, ho]
  cases (s.eng p).state <;> simp [PortState.isOn]

theorem giveRef_queue (s : State) (i : Src) (p q : Port) :
    (s.giveRef i p).queue q = if p = q then insertByKey s.queueKey i (s.queue p) else s.queue q := by
  show ((s.insertRef p i).modNotice i _).queue q = _
  rw [modNotice_queue]
  exact insertRef_queue s p q i

theorem giveRef_notice {s : State} {i : Src} {n : Notice} (h : s.notice i = some n) (p : Port) :
    (s.giveRef i p).notice i = some { n with state := .waiting } :=
  modNotice_some (s := s.insertRef p i) h _

/-- The references of a SHARED walk: one at every port of the list that is eligible before it. -/
theorem foldl_giveRef (i : Src) (n : Notice) (l : List Port) : ∀ (s : State) (m : Notice), s.notice i = some m →
    let t := l.foldl (fun t p => if t.eligible i n p then t.giveRef i p else t) s
    (∀ p, i ∈ t.queue p ↔ i ∈ s.queue p ∨ (p ∈ l ∧ s.eligible i n p = true)) ∧
      t.notice i = some (if l.any (s.eligible i n) then { m with state := .waiting } else m) := by
  induction l with
  | nil => intro s m h; simpa using h
  | cons p l ih =>
    intro s m h
    simp only [List.foldl_cons]
    by_cases he : s.eligible i n p = true
    · rw [if_pos he]
      obtain ⟨hq, hn⟩ := ih (s.giveRef i p) _ (giveRef_notice h p)
      have hmem : i ∈ (s.giveRef i p).queue p := by rw [giveRef_queue, if_pos rfl]; simp
      have hsame (q : Port) (hpq : p ≠ q) : (s.giveRef i p).queue q = s.queue q := by
        rw [giveRef_queue, if_neg hpq]
      refine ⟨fun q => ?_, ?_⟩
      · rw [hq q]
        by_cases hpq : p = q
        · subst hpq; simp [hmem, he]
        · rw [eligible_congr (giveRef_offNotices s i p) (hsame q hpq), hsame q hpq]
          simp [Ne.symm hpq]
      · rw [hn]
        simp [he]
    · rw [if_neg he]
      obtain ⟨hq, hn⟩ := ih s m h
      refine ⟨fun q => ?_, ?_⟩
      · rw [hq q]
        by_cases hpq : p = q
        · subst hpq; simp [he]
        · simp [Ne.symm hpq]
      · rw [hn]
        simp [he]

/-- What a walk of a WAITING notice with no reference and no offer leaves (R83 to R87). -/
theorem walk_walked {s : State} {i : Src} {n : Notice} (h : s.notice i = some n) (hw : n.state = .waiting)
    (hb : s.hasPlace i = false) :
    ∃ m, (s.walk i).notice i = some m ∧ m = { n with state := m.state, tried := m.tried } ∧
      Walked s (s.walk i) i n.tried (fun p => (s.queue p).length) m := by
  have hbare : ¬ ((∃ p, i ∈ s.queue p) ∨ ∃ n p, s.notice i = some n ∧ n.offers.has p = true) := by
    rw [← hasPlace_iff, hb]; decide
  push Not at hbare
  obtain ⟨hq, ho⟩ := hbare
  have ho' : ∀ p, n.offers.has p = false := fun p => by simpa using ho n p h
  have het : s.eligible i n = s.takes n.cls n.tried (fun q => (s.queue q).length) :=
    funext fun p => eligible_eq_takes (hq p) (ho' p)
  have hplace : (∀ p, i ∈ (s.placeRefs i n).queue p ↔
        (n.mode = .shared ∧ p ∈ (s.cfg i).route.ports ∧ s.eligible i n p = true) ∨
        (n.mode = .directed ∧ (s.cfg i).route.ports.find? (s.eligible i n) = some p)) ∧
      (s.placeRefs i n).notice i = some n := by
    have hself : ({ n with state := .waiting } : Notice) = n := by rw [← hw]
    unfold State.placeRefs
    cases hm : n.mode with
    | directed =>
      dsimp only
      cases hf : (s.cfg i).route.ports.find? (s.eligible i n) with
      | none => simpa [hq] using h
      | some r =>
        dsimp only
        refine ⟨fun p => ?_, by rw [giveRef_notice h, hself]⟩
        rw [giveRef_queue]
        by_cases hrp : r = p
        · subst hrp; simp
        · rw [if_neg hrp]; simp [hq, hrp]
    | shared =>
      obtain ⟨h1, h2⟩ := foldl_giveRef i n (s.cfg i).route.ports s n h
      rw [hself, ite_self] at h2
      exact ⟨fun p => by rw [h1 p]; simp [hq], h2⟩
  obtain ⟨hpq, hpn⟩ := hplace
  have hsome : (s.placeRefs i n).hasPlace i = true ↔ ∃ p ∈ (s.cfg i).route.ports, s.eligible i n p = true := by
    rw [hasPlace_iff]
    constructor
    · rintro (⟨p, hp⟩ | ⟨m, p, hm, hp⟩)
      · rcases (hpq p).mp hp with ⟨_, h1, h2⟩ | ⟨_, h1⟩
        · exact ⟨p, h1, h2⟩
        · exact ⟨p, List.mem_of_find?_eq_some h1, List.find?_some h1⟩
      · rw [hpn] at hm; cases hm; rw [ho' p] at hp; cases hp
    · rintro ⟨p, h1, h2⟩
      left
      cases hm : n.mode with
      | shared => exact ⟨p, (hpq p).mpr (.inl ⟨hm, h1, h2⟩)⟩
      | directed =>
        cases hf : (s.cfg i).route.ports.find? (s.eligible i n) with
        | none => exact absurd h2 (by simpa using List.find?_eq_none.mp hf p h1)
        | some r => exact ⟨r, (hpq r).mpr (.inr ⟨hm, hf⟩)⟩
  have hwalk : s.walk i = if (s.placeRefs i n).hasPlace i then s.placeRefs i n else (s.placeRefs i n).strand i := by
    unfold State.walk
    rw [h]
    simp [hw]
  rw [hwalk]
  by_cases hs : (s.placeRefs i n).hasPlace i = true
  · rw [if_pos hs]
    refine ⟨n, hpn, rfl, fun hnone => ?_, fun _ => ⟨hw, rfl, fun hm p => ?_, fun hm p => ?_⟩⟩
    · obtain ⟨p, h1, h2⟩ := hsome.mp hs
      rw [het, hnone p h1] at h2; cases h2
    · rw [hpq p, ho' p, ← het]; simp [hm]
    · rw [hpq p, ho' p, ← het]; simp [hm]
  · rw [if_neg hs]
    have hno := mt hsome.mpr hs
    refine ⟨{ n with state := .stranded, tried := PortSet.empty }, ?_, rfl,
      fun _ => ⟨rfl, rfl, ?_, fun p => ⟨?_, ho' p⟩⟩, fun hex => absurd hex (by rw [← het]; exact hno)⟩
    · exact modNotice_some hpn _
    · show i ∈ insertByKey _ i _
      simp
    · have : ((s.placeRefs i n).strand i).queue p = (s.placeRefs i n).queue p := modNotice_queue _ _ _ _
      rw [this, hpq p]
      rintro (⟨_, h1, h2⟩ | ⟨_, h1⟩)
      · exact hno ⟨p, h1, h2⟩
      · exact hno ⟨p, List.mem_of_find?_eq_some h1, List.find?_some h1⟩

/-- No notice comes to a port of the same state. -/
theorem newcomers_self (s : State) (i : Src) (p : Port) : newcomers s s i p = 0 := by
  unfold newcomers
  rw [List.length_eq_zero_iff, List.filter_eq_nil_iff]
  intro j _
  cases s.placedAt j p <;> simp

/-! ### Detaches, the signalled set and the entry layouts -/

/-- The detach of a port that held nothing hands nothing back. -/
theorem handedBack_of_holdsNothing {s t : State} {p : Port} (h : HoldsNothing s p) (hn : t.notices = s.notices) :
    HandedBack s t p where
  waiting i n hi _ hp := by
    rcases hp with hp | hp
    · rw [h.offers i n hi] at hp; cases hp
    · rw [h.queue] at hp; cases hp
  claimed i n hi hc := absurd hc (h.claims i n hi)
  kept _ i _ _ := by unfold State.notice; rw [hn]
  pass hq := absurd h.queue hq

/-- The signalled set of a frame that begins (R170). -/
theorem signalSet_eq (s : State) (p : Port) : s.signalSet p =
    if (s.portCfg p).autoClear = true ∧ (s.eFlag p = true ∨ s.wFlag p = true) then
      s.latched p &&& ((s.portCfg p).eMap ||| (s.portCfg p).wMap)
    else 0 := by
  unfold State.signalSet
  simp

theorem portCode_eq (o : Option Port) :
    portCode o = match o with | some .A => 0 | some .B => 1 | some .C => 2 | none => 3 := by
  rcases o with _ | _ | _ | _ <;> rfl

/-- The bytes of a SOURCE content (R146). -/
theorem encodeSource_eq (c : SourceCfg) : encodeSource c =
    [byteOf ((if c.enabled then 1 else 0) + (match c.mode with | .directed => 0 | .shared => 2) +
        (match c.polarity with | .activeLow => 0 | .activeHigh => 4) + 8 * c.cls.val),
      byteOf ((match c.route.primary with | .A => 0 | .B => 1 | .C => 2) +
        4 * (match c.route.fallback1 with | some .A => 0 | some .B => 1 | some .C => 2 | none => 3) +
        16 * (match c.route.fallback2 with | some .A => 0 | some .B => 1 | some .C => 2 | none => 3))] ++
      le16 c.mask ++ [c.tag] := by
  unfold encodeSource boolNat
  rw [portCode_eq, portCode_eq]
  cases c.enabled <;> cases c.mode <;> cases c.polarity <;> cases c.route.primary <;> rfl

/-- The bytes of a CLASS content (R146). -/
theorem encodeClass_eq (c : ClassCfg) :
    encodeClass c = (match c.closeMode with | .manual => (0 : Byte) | .auto => 1) :: le16 c.serviceLimit := by
  unfold encodeClass
  cases c.closeMode <;> rfl

/-- The bytes of a PORT content (R146). -/
theorem encodePort_eq (c : PortCfg) : encodePort c =
    byteOf ((if c.enabled then 1 else 0) + (if c.autoClear then 2 else 0) +
        (match c.rate with | .r38400 => 0 | .r115200 => 4 | .r460800 => 8 | .r921600 => 12)) ::
      (le16 c.offerLimit ++ [c.backlog, c.classFilter, c.eMap, c.wMap]) := by
  unfold encodePort boolNat
  cases c.enabled <;> cases c.autoClear <;> cases c.rate <;> rfl

/-- The bytes of a DEVICE content (R146). -/
theorem encodeDevice_eq (c : DeviceCfg) : encodeDevice c =
    [(match c.rate with | .k62_5 => (0 : Byte) | .k125 => 1 | .k250 => 2 | .k500 => 3), c.window, c.filterCount] := by
  unfold encodeDevice
  cases c.rate <;> rfl

/-! ### Link rates and merges -/

/-- A link rate that waits for nothing takes effect at a transmitter that is between frames (R131). -/
theorem applyRate_due {s : State} {p : Port} {r : LinkRate} (h : (s.eng p).ratePending = some ⟨r, 0⟩)
    (ht : (s.eng p).tx = .idle) :
    s.applyRate p = s.setEng p { s.eng p with rate := r, ratePending := none, rx := .hunt } := by
  unfold State.applyRate
  simp only [h, ht, if_true]

/-- No link rate takes effect while a frame is in transmission. -/
theorem applyRate_busy {s : State} {p : Port} (ht : (s.eng p).tx ≠ .idle) : s.applyRate p = s := by
  unfold State.applyRate
  dsimp only
  split
  · rw [if_neg ht]
  · rfl

@[simp] theorem releaseRate_some (x : PendingRate) : releaseRate (some x) = some ⟨x.rate, 0⟩ := rfl

/-- What a change of link rate leaves pending (R131, log 16). -/
theorem pendRate_some {s : State} {q : Port} {x : PendingRate} (h : (s.eng q).ratePending = some x) (rate : LinkRate)
    (own : Bool) : s.pendRate q rate own =
      s.setEng q { s.eng q with ratePending := some ⟨rate, max x.after ((s.eng q).owedAfterWrite own)⟩ } := by
  unfold State.pendRate
  simp only [h]

theorem pendRate_none {s : State} {q : Port} (h : (s.eng q).ratePending = none) (rate : LinkRate) (own : Bool) :
    s.pendRate q rate own =
      s.setEng q { s.eng q with ratePending := some ⟨rate, (s.eng q).owedAfterWrite own⟩ } := by
  unfold State.pendRate
  simp only [h]

/-- The check that a merge makes (R12). -/
theorem mergeable_iff (n : Notice) : n.mergeable = true ↔ n.merges := by
  unfold Notice.mergeable Notice.merges
  cases n.state <;> simp

end Sys2Proof.Machine
end

