-- ==== Sys2Proof/Laws/Requests.lean ====
section
/-! SUPPORT. How a request command runs: the head frame, the checks, and the response that its meaning makes, each said
once for all request kinds. -/

namespace Sys2Proof.Machine

/-- The frame leaves the queue: the state that a request's meaning starts from. -/
def State.popped (s : State) (p : Port) (rest : List Frame) : State := s.setEng p { s.eng p with requests := rest }

/-- The checks look at the stage and the port state alone, which taking the frame off the queue does not change. -/
theorem decodeCheck_popped (s : State) (p : Port) (rest : List Frame) (k : ReqKind) (f : Frame) :
    (s.popped p rest).decodeCheck p k f = s.decodeCheck p k f := by
  simp [State.popped, State.decodeCheck]

theorem execHead_named {s : State} {p : Port} {f : Frame} {rest : List Frame} {named : Frame → Bool}
    {run : Frame → State → State} (hm : s.mayExecute p = true) (hq : (s.eng p).requests = f :: rest)
    (hn : named f = true) : s.execHead p named run = (run f (s.popped p rest)).settle := by
  unfold State.execHead
  rw [if_pos hm, hq]
  simp only [hn, if_true]
  rfl

/-- A frame that the checks admit is decided by the meaning of its kind. -/
theorem execKind_of_executes {s : State} {p : Port} {k : ReqKind} {f : Frame} {rest : List Frame}
    {named : Frame → Bool} {run : Frame → State → State} (h : Executes s p k f rest) (hn : named f = true) :
    s.execKind p k named run = (run f (s.popped p rest)).settle := by
  unfold State.execKind
  rw [execHead_named h.may h.queued (by rw [Bool.and_eq_true, beq_iff_eq]; exact ⟨h.kind, hn⟩)]
  simp only [decodeCheck_popped, h.admitted]

/-- A frame that a check refuses is answered with the refusing status. -/
theorem execKind_refused {s : State} {p : Port} {k : ReqKind} {f : Frame} {rest : List Frame}
    {named : Frame → Bool} {run : Frame → State → State} {st : Status} (hm : s.mayExecute p = true)
    (hq : (s.eng p).requests = f :: rest) (hk : f.head = k.head) (hn : named f = true)
    (hc : s.decodeCheck p k f = some st) :
    s.execKind p k named run = ((s.popped p rest).respond p ⟨f.head, st, []⟩).settle := by
  unfold State.execKind
  rw [execHead_named hm hq (by rw [Bool.and_eq_true, beq_iff_eq]; exact ⟨hk, hn⟩)]
  simp only [decodeCheck_popped, hc]

/-- A port that may not execute, or has no frame, does nothing. -/
theorem execHead_idle {s : State} {p : Port} {named : Frame → Bool} {run : Frame → State → State}
    (h : s.mayExecute p = false ∨ (s.eng p).requests = []) : s.execHead p named run = s := by
  unfold State.execHead
  rcases h with h | h
  · rw [h]
    rfl
  · rw [h]
    split <;> rfl

theorem execKind_idle {s : State} {p : Port} {k : ReqKind} {named : Frame → Bool} {run : Frame → State → State}
    (h : s.mayExecute p = false ∨ (s.eng p).requests = []) : s.execKind p k named run = s :=
  execHead_idle h

/-- Whether a port is at rest depends on its own engine, and through its queue and offers on nothing that the engines
hold. -/
theorem quiet_of_eng {s t : State} {q : Port} (hs : t.stage = s.stage) (hn : t.notices = s.notices)
    (hd : t.delivery = s.delivery) (he : t.eng q = s.eng q) (h : PortQuiet s q) : PortQuiet t q := by
  have hqueue : t.queue q = s.queue q := by
    unfold State.queue
    rw [hd]
  have hoffers : t.offerCount q = s.offerCount q := by
    simp only [State.offerCount, State.notice, hn]
  have htake : t.canTakeHead q = s.canTakeHead q := by
    simp only [State.canTakeHead, he, hs, hqueue, hoffers]
  unfold PortQuiet
  rw [he, htake]
  exact h

/-- A response made at a port whose other ports are at rest, and whose engine e was at rest but for it: the state that
`State.reply` names. -/
theorem settle_respond {s : State} {p : Port} {e : PortEngine} {r : Response} (h : Settled s)
    (hon : (s.eng p).state ≠ .disabled) (he : e.state ≠ .disabled) (htx : e.tx = (s.eng p).tx)
    (hres : e.responses = (s.eng p).responses) (hrate : e.tx = .idle → e.rateDue = false) :
    ((s.setEng p e).respond p r).settle = s.reply p e r := by
  have heng : (s.setEng p e).respond p r = s.setEng p { e with responses := e.responses ++ [r] } := by
    simp [State.respond]
  have other (q : Port) (hq : p ≠ q) (x : PortEngine) : PortQuiet (s.setEng p x) q := by
    refine quiet_of_eng (by rfl) (by rfl) (by rfl) ?_ (h.quiet q)
    rw [State.eng_setEng, if_neg hq]
  have otherSig (q : Port) (hq : p ≠ q) (x : PortEngine) (m : DevSet) :
      PortQuiet ((s.setEng p x).setSignalled p m) q := by
    refine quiet_of_eng (by rfl) (by rfl) (by rfl) ?_ (h.quiet q)
    rw [State.eng_setSignalled, State.eng_setEng, if_neg hq]
  rw [heng]
  unfold State.reply
  by_cases hidle : e.tx = .idle
  · have hempty : e.responses = [] := by
      rw [hres]
      exact ((h.quiet p (htx ▸ hidle)).2 hon).1
    rw [if_pos hidle]
    have step : (s.setEng p { e with responses := e.responses ++ [r] }).settlePort p =
        (s.setEng p { e with lost := false, tx := .sending ⟨s.eFlag p, s.wFlag p, e.lost, .response r⟩ }).setSignalled
          p (s.signalSet p) := by
      have hr : (s.setEng p { e with responses := e.responses ++ [r] }).applyRate p =
          s.setEng p { e with responses := e.responses ++ [r] } := by
        have hdue := hrate hidle
        unfold State.applyRate
        dsimp only
        split
        · rename_i x hx
          rw [State.eng_setEng, if_pos rfl] at hx
          simp only at hx
          simp [PortEngine.rateDue, hx] at hdue
        · rfl
      unfold State.settlePort
      rw [hr]
      unfold State.chooseFrame State.beginFrame
      simp only [State.eng_setEng, if_true, hempty, List.nil_append, hidle, he, ne_eq, not_false_eq_true, and_self,
        State.setEng_setEng]
      rfl
    have rest : PortQuiet ((s.setEng p { e with
        lost := false, tx := .sending ⟨s.eFlag p, s.wFlag p, e.lost, .response r⟩ }).setSignalled p (s.signalSet p))
        p := by
      intro hc
      rw [State.eng_setSignalled, State.eng_setEng, if_pos rfl] at hc
      exact absurd hc (by simp)
    unfold State.settle
    cases p
    · rw [step, settlePort_of_quiet (otherSig .B (by decide) _ _), settlePort_of_quiet (otherSig .C (by decide) _ _)]
    · rw [settlePort_of_quiet (other .A (by decide) _), step, settlePort_of_quiet (otherSig .C (by decide) _ _)]
    · rw [settlePort_of_quiet (other .A (by decide) _), settlePort_of_quiet (other .B (by decide) _), step]
  · rw [if_neg hidle]
    refine settle_of_quiet fun q => ?_
    by_cases hq : p = q
    · subst hq
      intro hc
      rw [State.eng_setEng, if_pos rfl] at hc
      exact absurd hc hidle
    · exact other q hq _

/-- A request whose meaning only answers: the frame leaves the queue and the response is made. -/
theorem settle_answer {s : State} {p : Port} {rest : List Frame} {r : Response} (h : Settled s)
    (hm : s.mayExecute p = true) :
    ((s.popped p rest).respond p r).settle = s.reply p { s.eng p with requests := rest } r := by
  have hon : (s.eng p).state ≠ .disabled := by
    unfold State.mayExecute at hm
    simp only [Bool.and_eq_true, bne_iff_ne] at hm
    exact hm.1.2
  exact settle_respond h hon hon rfl rfl (fun hidle => (h.quiet p hidle).1)

end Sys2Proof.Machine
end

