-- ==== Sys2Proof/Tests/Slice0.lean ====
section
/-! SUPPORT. Tests: ill-formed operands are refused, each command does on one small state what the spec says, and the
hypotheses of each statement are met by a concrete state. -/

namespace Sys2Proof.Tests

open Sys2Proof.Machine

set_option Elab.async false

/-! ### Small states -/

/-- Tables with every source enabled, of class 0. -/
def tables : Tables :=
  { defaultTables with sources := Vector.replicate 56 { defaultSource with enabled := true, cls := 0 } }

/-- RUNNING, every source QUIET, every port ATTACHED with a window of 2 and between frames, the bus in a gap, and the
right held by A. -/
def ready : State :=
  { State.reset with
    stage := .running
    sources := { rt := Vector.replicate 56 { SourceRt.reset with state := .quiet }
                 lines := Vector.replicate 8 LineRt.reset }
    bus := { FieldBus.reset with state := .gap .k125 }
    engines := PerPort.all { PortEngine.reset with state := .attached 2, rx := .receiving [] false }
    config := { State.reset.config with tables := tables, right := some .A } }

/-- The state after a command. -/
def after (c : Instr) (s : State) : State :=
  match exec c s with
  | .next t => t
  | .fault _ => s
  | .refused _ => s

/-- s with one frame in p's request queue. -/
def ask (s : State) (p : Port) (head : Byte) (payload : List Byte) : State :=
  s.setEng p { s.eng p with requests := [⟨head, payload⟩] }

def withState (s : State) (p : Port) (st : PortState) : State := s.setEng p { s.eng p with state := st }
def withTx (s : State) (p : Port) (tx : Transmitter) : State := s.setEng p { s.eng p with tx := tx }
def withRx (s : State) (p : Port) (rx : Receiver) : State := s.setEng p { s.eng p with rx := rx }
def withStage (s : State) (st : Stage) : State := { s with stage := st }
def withRight (s : State) (r : Option Port) : State := { s with config := { s.config with right := r } }
def withStore (s : State) (st : StoreState) : State := { s with config := { s.config with store := st } }

/-- A transaction in flight. -/
def flight (w : BusWork) : InFlight := ⟨w, .k125, 32, false⟩
def onBus (s : State) (w : BusWork) : State := s.setBus { s.bus with state := .inFlight (flight w) }
def idleBus (s : State) : State := s.setBus { s.bus with state := .idle }

/-- A good reply. -/
def good (report : BitVec 16) : Option FieldReply := some ⟨1, report, fieldCheck report⟩

/-- A notice with mark 1, conditions {0} and class 0. -/
def note (st : NoticeState) (offers : PortSet) : Notice :=
  { mark := 1, cls := 0, mode := .directed, conds := 1, state := st, offers := offers, tried := PortSet.empty,
    shown := true, takeover := false, order := 0, offerTimers := PerPort.all none, serviceTimer := none }

/-- s with a notice of source i, which is OPEN. -/
def noted (s : State) (i : Src) (n : Notice) : State :=
  let s := (s.setSrc i { s.src i with state := .opened, openings := 1 }).setNotice i (some n)
  { s with notices := { s.notices with nextOrder := 1 } }

def toA : PortSet := PortSet.empty.insert .A
def toAB : PortSet := toA.insert .B

/-- The notice of source 1 offered to A, claimed by A, stranded, queued at A while A sends a frame. -/
def offered : State := noted ready 0 (note .waiting toA)
def claimed : State := noted ready 0 (note (.claimed .A) PortSet.empty)
def stranded : State :=
  (noted (withState ready .A (.held 2)) 0 (note .stranded PortSet.empty)).setStranded [0]
def sent : TxFrame := ⟨false, false, false, .response ⟨0x24, .ok, []⟩⟩
def queued : State :=
  ((noted (withTx ready .A (.sending sent)) 0 { note .waiting PortSet.empty with shown := false }).setQueue .A [0])

/-- Source 2 DISABLED; source 1 CLOSING; a direct line's notice claimed by A. -/
def disabled : State := (ready.setCfg 1 { ready.cfg 1 with enabled := false }).setSrc 1 SourceRt.reset
def closing : State := ready.setSrc 0 { ready.src 0 with state := .closing, arrears := 4 }
def lineClaimed : State := noted ready 48 (note (.claimed .A) PortSet.empty)

/-- The line of L0 high or low for a sample; the others are high, which is inactive. -/
def lineLow : BitVec 8 := 0xFE

/-- A WRITE_ENTRY of a table at A. -/
def write (s : State) (table index : Byte) (content : List Byte) : State := ask s .A 0x31 (table :: index :: content)

/-! ### Ill-formed operands -/

theorem test_wf_reply_lead_zero : (Instr.pollEnd (some ⟨0, 0, 0⟩)).wf = false := by decide
theorem test_wf_reply_lead_long : (Instr.clearEnd (some ⟨256, 0, 0⟩)).wf = false := by decide
theorem test_wf_scan_reply_lead_zero : (Instr.scanStepEnd (some ⟨0, 0, 0⟩)).wf = false := by decide
theorem test_wf_reply_edges : (Instr.pollEnd (some ⟨1, 0, 0⟩)).wf = true ∧ (Instr.pollEnd (some ⟨255, 0, 0⟩)).wf = true ∧
    (Instr.pollEnd none).wf = true := by decide
theorem test_wf_image_length : (Instr.storeComplete [] 0).wf = false ∧
    (Instr.storeComplete (List.replicate imageLength 0) 0).wf = true := by decide +kernel

/-! ### Check values that can be worked by hand -/

/-- One shift of the register 0xFF: the high bit leaves and 0x31 is taken off. -/
theorem test_crc_shift : crcShift (0x31 : BitVec 8) 0xFF = 0xCF ∧ crcShift (0x1021 : BitVec 16) 0xFFFF = 0xEFDF := by
  decide

/-- The common check words of the two polynomials over the nine ASCII digits. -/
theorem test_check_words :
    crc8 [0x31, 0x32, 0x33, 0x34, 0x35, 0x36, 0x37, 0x38, 0x39] = 0xF7 ∧
      crc16 [0x31, 0x32, 0x33, 0x34, 0x35, 0x36, 0x37, 0x38, 0x39] = 0x29B1 := by decide +kernel

/-- The openers and the address of source 5 on the field bus. -/
theorem test_driven_slots :
    (BusWork.scan 4).drivenSlots = [false, true, true, false, false, false, false, true, false, true] ∧
      (BusWork.bid).drivenSlots = [false, true, false, true] := by decide

/-- The numbers of slots that section 2.5 gives for the transactions. -/
theorem test_transaction_lengths :
    ((flight .bid).slots (.round 1 0 0)).length = 35 ∧ ((flight .bid).slots (.round 63 0 0)).length = 10 ∧
      ((flight (.scan 0)).slots (.reply (some ⟨1, 0, 0⟩))).length = 36 ∧
      ((flight (.scan 0)).slots (.reply none)).length = 42 ∧
      ((flight (.clear ⟨0, 1, 0⟩ false)).slots (.reply (some ⟨1, 0, 0⟩))).length = 60 ∧
      ((flight (.clear ⟨0, 1, 0⟩ false)).slots (.reply none)).length = 66 := by decide +kernel

/-- The wires of a clear: the opening edge, the first slot, which is 0, and rest after the last. -/
theorem test_wires :
    let s := onBus ready (.clear ⟨0, 1, 0⟩ false)
    s.drive (.reply none) 0 = ⟨true, true⟩ ∧ s.drive (.reply none) 1 = ⟨false, true⟩ ∧
      s.drive (.reply none) 2 = ⟨true, true⟩ ∧ s.drive (.reply none) 5 = ⟨false, false⟩ ∧
      s.drive (.reply none) 133 = ⟨true, false⟩ ∧ ready.drive (.reply none) 0 = ⟨true, false⟩ := by decide +kernel

/-- The character of the byte 0x31, which holds three ones, from the start bit to the stop bit. -/
theorem test_character_line :
    charLine (goodChar 0x31) = [false, true, false, false, false, true, true, false, false, false, true] := by decide

/-- The HEAD of a WITHDRAWN frame with E set and of a RESPONSE with W and LOST. -/
theorem test_heads :
    TxFrame.head ⟨true, false, false, .withdrawn ⟨0, 1, .taken⟩⟩ = 0xE0 ∧
      TxFrame.head ⟨false, true, true, .response ⟨0x24, .ok, []⟩⟩ = 0x58 := by decide

/-- The entry layouts: a SOURCE entry with every field set, and the default PORT entry. -/
theorem test_layouts :
    encodeSource ⟨true, 5, ⟨.B, some .A, none⟩, .shared, 0x7FFE, 0xAA, .activeHigh⟩ =
      [0x2F, 0x31, 0xFE, 0x7F, 0xAA] ∧
    encodePort defaultPort = [0x05, 0xF4, 0x01, 56, 0xFF, 0x29, 0xD6] := by decide

/-! ### One effect of each command -/

theorem test_fullReset : after .fullReset ready = State.reset := by decide +kernel

theorem test_bootLoadComplete :
    let t := after (.bootLoadComplete false) State.reset
    t.stage = .running ∧ t.present .A = 0x10 ∧ (t.eng .B).state = .detached := by decide +kernel

theorem test_lineSample :
    ((after (.lineSample lineLow) ready).line 0).stability = 1 ∧
      ((after (.lineSample lineLow) ready).line 1).stability = 0 := by decide +kernel

theorem test_lineSample_rises :
    let t := after (.lineSample lineLow) (ready.setLine 0 ⟨.inactive, 3, false⟩)
    t.line 0 = ⟨.active, 0, true⟩ ∧ (t.src 48).state = .opened := by decide +kernel

theorem test_offerExpiry :
    let s := offered.modNotice 0 (fun n => { n with offerTimers := n.offerTimers.set .A (some 0) })
    let t := after (.offerExpiry .A 0) s
    t.notice 0 = some { note .stranded PortSet.empty with tried := PortSet.empty } ∧ t.stranded = [0] ∧
      (t.eng .A).tx = .sending ⟨true, false, false, .withdrawn ⟨0, 1, .expired⟩⟩ := by decide +kernel

theorem test_serviceExpiry :
    let s := claimed.modNotice 0 (fun n => { n with serviceTimer := some 0 })
    let t := after (.serviceExpiry 0) s
    t.notice 0 = some { note .stranded PortSet.empty with takeover := true } ∧ t.latched .A = 0x41 := by decide +kernel

theorem test_linkCharacter :
    ((after (.linkCharacter .A (goodChar 0x24)) ready).eng .A).rx = .receiving [0x24] false := by decide +kernel

theorem test_frameIdleTimeout :
    let t := after (.frameIdleTimeout .A) (withRx ready .A (.receiving [0x24] false))
    (t.eng .A).rx = .hunt ∧ (t.eng .A).errors = ⟨0, 1, 0, 0⟩ ∧ (t.eng .A).lost = true ∧ t.latched .A = 0x80 := by
  decide +kernel

theorem test_huntEnd : ((after (.huntEnd .B) (withRx ready .B .hunt)).eng .B).rx = .receiving [] false := by
  decide +kernel

theorem test_linkBreak :
    let t := after (.linkBreak .A) claimed
    (t.eng .A).state = .detached ∧ t.config.right = none ∧
      t.notice 0 = some { note .stranded PortSet.empty with takeover := true } := by decide +kernel

theorem test_frameSent :
    let t := after (.frameSent .A) queued
    (t.eng .A).tx = .sending ⟨false, false, false, .notice ⟨0, 1, 0, 1, 0, false, false⟩⟩ ∧ t.queue .A = [] ∧
      t.nreq .A = true := by decide +kernel

theorem test_fatLow : (after .fatLow (idleBus ready)).bus.state = .inFlight (flight .bid) := by decide +kernel

theorem test_fatLow_booting : after .fatLow State.reset = State.reset := by decide +kernel

theorem test_gapEnd : (after (.gapEnd false) ready).bus.state = .idle ∧
    (after (.gapEnd true) ready).bus.state = .inFlight (flight .bid) := by decide +kernel

theorem test_bidRoundEnd :
    let t := after (.bidRoundEnd 3 4 (fieldCheck 4)) (onBus ready .bid)
    (t.src 2).state = .opened ∧ (t.src 2).reported = 4 ∧ t.bus.ack = .accepted ∧ t.bus.prev = .bid := by decide +kernel

theorem test_pollEnd :
    let t := after (.pollEnd (good 4)) (onBus ready (.poll ⟨2, toA⟩))
    (t.src 2).state = .opened ∧ (t.eng .A).tx = .sending ⟨false, false, false,
      .response ⟨0x23, .ok, [3, 4, 0, 0]⟩⟩ := by decide +kernel

theorem test_clearEnd :
    let t := after (.clearEnd (good 0)) (onBus closing (.clear ⟨0, 1, 0⟩ false))
    (t.src 0).state = .opened ∧ (t.notice 0).map (fun n => n.conds) = some 4 ∧ (t.src 0).arrears = 0 := by decide +kernel

theorem test_scanStepEnd :
    let t := after (.scanStepEnd none) (withStage (onBus ready (.scan 0)) .scanning)
    t.bus.attempts = 1 ∧ (t.src 0).failures = 1 ∧ t.bus.ack = .notGiven := by decide +kernel

theorem test_passWalk :
    let t := after .passWalk (stranded.setPass [0] false)
    t.queue .A = [0] ∧ t.stranded = [] ∧ t.delivery.passList = [] := by decide +kernel

theorem test_attach :
    let t := after (.attach .A) (ask (withState ready .A .detached) .A 0x10 [3])
    (t.eng .A).state = .attached 3 ∧
      (t.eng .A).tx = .sending ⟨false, false, false, .response ⟨0x10, .ok, []⟩⟩ := by decide +kernel

theorem test_detach :
    let t := after (.detach .A) (ask offered .A 0x11 [])
    (t.eng .A).state = .detached ∧ t.notice 0 = some (note .stranded PortSet.empty) := by decide +kernel

theorem test_hold : ((after (.hold .A) (ask ready .A 0x12 [])).eng .A).state = .held 2 := by decide +kernel

theorem test_resume :
    let t := after (.resume .A) (ask stranded .A 0x13 [])
    (t.eng .A).state = .attached 2 ∧ t.delivery.passList = [0] := by decide +kernel

theorem test_claim :
    let t := after (.claim .A) (ask offered .A 0x20 [1, 1, 0])
    t.notice 0 = some (note (.claimed .A) PortSet.empty) ∧
      (t.eng .A).tx = .sending ⟨false, false, false, .response ⟨0x20, .ok, [1, 1, 0, 1, 0]⟩⟩ := by decide +kernel

theorem test_release :
    let t := after (.release .A) (ask claimed .A 0x21 [1, 1, 0])
    t.notice 0 = some (note .stranded PortSet.empty) ∧ t.stranded = [0] := by decide +kernel

theorem test_close :
    let t := after (.close .A) (ask claimed .A 0x22 [1, 1, 0, 1, 0])
    t.notice 0 = none ∧ (t.src 0).state = .closing ∧ t.bus.clearList = [⟨0, 1, 0⟩] := by decide +kernel

theorem test_poll :
    (after (.poll .B) (ask ready .B 0x23 [7])).bus.pollQueue = [⟨6, PortSet.empty.insert .B⟩] := by decide +kernel

theorem test_sweep : (after (.sweep .B) (ask stranded .B 0x24 [])).delivery.passList = [0] := by decide +kernel

theorem test_readEntry :
    ((after (.readEntry .A) (ask ready .A 0x30 [4, 1])).eng .A).tx =
      .sending ⟨false, false, false, .response ⟨0x30, .ok, [4, 1, 0x05, 0xF4, 0x01, 56, 0xFF, 0x29, 0xD6]⟩⟩ := by
  decide +kernel

theorem test_readEntry_sourceState :
    ((after (.readEntry .A) (ask (noted ready 0 (note .waiting toAB)) .A 0x30 [1, 1])).eng .A).tx =
      .sending ⟨false, false, false,
        .response ⟨0x30, .ok, [1, 1, 0x42, 0, 0, 0, 0, 1, 0, 0x6C, 1, 0, 1, 0]⟩⟩ := by
  decide +kernel

theorem test_sourceDisable :
    let t := after (.sourceDisable .A) (write claimed 0 1 [0x38, 0x3C, 0xFF, 0x7F, 0])
    t.notice 0 = none ∧ (t.src 0).state = .disabled ∧ (t.eng .A).withdrawals = [⟨0, 1, .disabled⟩] := by decide +kernel

theorem test_sourceEnable :
    let t := after (.sourceEnable .A) (write disabled 0 2 [0x39, 0x3C, 0xFF, 0x7F, 0])
    (t.src 1).state = .quiet ∧ (t.cfg 1).cls = 7 := by decide +kernel

theorem test_writeSourceEntry :
    let t := after (.writeSourceEntry .A) (write stranded 0 1 [0x01, 0x3D, 0xFF, 0x7F, 9])
    (t.cfg 0).route = ⟨.B, none, none⟩ ∧ (t.cfg 0).tag = 9 ∧ t.delivery.passList = [0] := by decide +kernel

theorem test_writeClassEntry :
    (after (.writeClassEntry .A) (write ready 2 7 [1, 0x10, 0x02])).clsCfg 7 = ⟨.auto, 0x210⟩ := by decide +kernel

theorem test_writeOrder :
    (after (.writeOrder .A) (write ready 3 0 [7, 6, 5, 4, 3, 2, 1, 0])).config.tables.order =
      [7, 6, 5, 4, 3, 2, 1, 0] := by decide +kernel

def portOff (p : Port) : State :=
  (withState ready p .disabled).setPortCfg p { ready.portCfg p with enabled := false }

theorem test_portEnable :
    ((after (.portEnable .A) (write (portOff .B) 4 1 [0x05, 0xF4, 0x01, 56, 0xFF, 0x29, 0xD6])).eng .B).state =
      .detached := by decide +kernel

theorem test_portDisable :
    ((after (.portDisable .A) (write ready 4 1 [0x04, 0xF4, 0x01, 56, 0xFF, 0x29, 0xD6])).eng .B).state =
      .disabled := by decide +kernel

theorem test_backlogLimitLower :
    let s := noted (noted (withTx ready .B (.sending sent)) 0 { note .waiting PortSet.empty with shown := false })
      1 { note .waiting PortSet.empty with shown := false, order := 1 }
    let t := after (.backlogLimitLower .A)
      (write (s.setQueue .B [0, 1]) 4 1 [0x05, 0xF4, 0x01, 1, 0xFF, 0x29, 0xD6])
    t.queue .B = [0] ∧ t.backlogged .B = true ∧ t.queue .A = [1] := by decide +kernel

theorem test_backlogLimitRaise :
    let s := ready.setPortCfg .B { ready.portCfg .B with backlog := 1 }
    ((after (.backlogLimitRaise .A) (write s 4 1 [0x05, 0xF4, 0x01, 2, 0xFF, 0x29, 0xD6])).portCfg .B).backlog = 2 := by
  decide +kernel

theorem test_linkRateWrite :
    let t := after (.linkRateWrite .A) (write ready 4 1 [0x0D, 0xF4, 0x01, 56, 0xFF, 0x29, 0xD6])
    (t.eng .B).rate = .r921600 ∧ (t.eng .B).rx = .hunt := by decide +kernel

theorem test_writePortEntry :
    ((after (.writePortEntry .A) (write ready 4 1 [0x05, 0x00, 0x02, 56, 0x0F, 0x01, 0x80])).portCfg .B) =
      ⟨true, false, .r115200, 0x200, 56, 0x0F, 0x01, 0x80⟩ := by decide +kernel

theorem test_writeDeviceEntry :
    (after (.writeDeviceEntry .A) (write ready 5 0 [3, 8, 15])).config.tables.device = ⟨.k500, 8, 15⟩ := by decide +kernel

theorem test_takeRight :
    (after (.takeRight .B) (ask (withRight ready none) .B 0x32 [])).config.right = some .B := by decide +kernel

theorem test_giveRight : (after (.giveRight .A) (ask ready .A 0x33 [])).config.right = none := by decide +kernel

theorem test_store :
    (after (.store .A) (ask ready .A 0x34 [])).config.store = .writing tables (some .A) := by decide +kernel

theorem test_storeComplete :
    let t := after (.storeComplete [] 0) (withStore ready (.writing tables none))
    t.config.store = .idle ∧ t.config.image.valid = false ∧ t.present .C = 0x20 ∧ t.latched .C = 0x20 := by decide +kernel

theorem test_clearAll :
    let t := after (.clearAll .A) (ask claimed .A 0x35 [])
    t.notice 0 = none ∧ (t.src 0).state = .quiet ∧ t.stage = .scanning ∧ t.bus.cursor = 1 ∧
      (t.eng .A).withdrawals = [⟨0, 1, .cleared⟩] := by decide +kernel

theorem test_status :
    ((after (.status .A) (ask offered .A 0x40 [])).eng .A).tx = .sending ⟨false, false, false,
      .response ⟨0x40, .ok, [0x2A, 1, 0, 0, 0, 0, 0, 0, 0, 0, 0]⟩⟩ := by decide +kernel

theorem test_ackStatus :
    let t := after (.ackStatus .A) (ask ((ready.setLatched .A 0x81).setLatched .B 0x81) .A 0x41 [0x80])
    t.latched .A = 0x01 ∧ t.latched .B = 0x81 := by decide +kernel

theorem test_resumeField :
    let s := ready.setBus { ready.bus with state := .idle, bidRun := 4, suspended := true, fatLow := true }
    let t := after (.resumeField .A true) (ask s .A 0x42 [])
    t.bus.bidRun = 0 ∧ t.bus.suspended = false ∧ t.bus.state = .inFlight (flight .bid) := by decide +kernel

theorem test_unknownRequest :
    ((after (.unknownRequest .A) (ask ready .A 0x99 [1])).eng .A).tx =
      .sending ⟨false, false, false, .response ⟨0x99, .unknown, []⟩⟩ := by decide +kernel

theorem test_lineReturnToMark :
    let t := after (.lineReturnToMark .C) (withRx ready .C (.receiving [] true))
    (t.eng .C).rx = .hunt ∧ (t.eng .C).errors = ⟨0, 1, 0, 0⟩ := by decide +kernel

theorem test_step_idles : step ready = .next ready := rfl

/-! ### The hypotheses of each statement are met -/

theorem witness_StepRunsTheFrontCommand :
    ({ ready with pending := [.fatLow, .passWalk] } : State).pending = .fatLow :: [.passWalk] ∧ ready.pending = [] := by
  decide +kernel

/-- A store with a valid image of `tables`, in BOOTING; line L0 is ACTIVE in the first, L1 latched. -/
def booting : State :=
  { State.reset with config := { State.reset.config with
      image := ⟨true, encodeTables tables, crc16 (encodeTables tables)⟩ } }

set_option maxRecDepth 100000 in
theorem witness_BootLoadStartsTheScan :
    booting.stage = .booting ∧ booting.bus.state = .idle ∧ booting.config.image.load = some tables ∧
      ((booting.setLine 0 ⟨.active, 0, false⟩).line 0).filtered = .active ∧
      ((booting.setLine 7 ⟨.inactive, 0, true⟩).line 7).latch = true ∧
      (tables.sources.get (Src.ofLine 0)).enabled = true ∧ (tables.sources.get (Src.ofLine 7)).mask.getLsbD 0 = true ∧
      (tables.sources.get 47).enabled = true ∧ (booting.src (Src.ofLine 0)).code15 = false := by decide +kernel

theorem witness_BootLoadStartsTheScan_defaults :
    State.reset.stage = .booting ∧ State.reset.bus.state = .idle ∧ State.reset.config.image.load = none ∧
      (defaultTables.sources.get (Src.ofLine 0)).enabled = false ∧ (defaultTables.sources.get 0).enabled = false := by
  decide +kernel

theorem witness_InvalidImageStartsWithDefaults : ready.config.image.load = none ∧
    ({ valid := true, content := [], check := 0 } : StoreImage).load = none := by decide +kernel

/-- Tables at the edges of the ranges. -/
def edgeTables : Tables :=
  { sources := Vector.replicate 56 ⟨true, 7, ⟨.C, some .B, some .A⟩, .shared, 0, 0xFF, .activeLow⟩
    classes := Vector.replicate 8 ⟨.auto, 0xFFFF⟩
    order := [7, 6, 5, 4, 3, 2, 1, 0]
    ports := PerPort.all ⟨false, true, .r921600, 0xFFFF, 1, 0, 0xFF, 0⟩
    device := ⟨.k500, 8, 15⟩ }

theorem witness_StoredTablesSurviveReset : TablesOk tables ∧ TablesOk edgeTables ∧
    (withStore ready (.writing edgeTables none)).config.store = .writing edgeTables none :=
  ⟨tablesOk_of (by decide +kernel), tablesOk_of (by decide +kernel), rfl⟩

theorem witness_ClearAllEndsEveryNoticeAndRescans :
    (let s := ask ready .B 0x35 []
     Executes s .B .clearAll ⟨0x35, []⟩ [] ∧ Settled s ∧ s.config.right ≠ some .B) ∧
    (let s := onBus (ask claimed .A 0x35 []) (.poll ⟨4, toAB⟩)
     Executes s .A .clearAll ⟨0x35, []⟩ [] ∧ PlacesOk s ∧ s.config.right = some .A ∧
       s.notice 0 = some (note (.claimed .A) PortSet.empty) ∧ (s.cfg 0).enabled = true ∧
       s.bus.state = .inFlight (flight (.poll ⟨4, toAB⟩))) ∧
    (let s := onBus (ask offered .A 0x35 []) .bid
     let s := s.setBus { s.bus with pollQueue := [⟨5, toA⟩] }
     Executes s .A .clearAll ⟨0x35, []⟩ [] ∧ PlacesOk s ∧ s.config.right = some .A ∧
       s.notice 0 = some (note .waiting toA) ∧ (⟨5, toA⟩ : PollEntry) ∈ s.bus.pollQueue ∧
       s.bus.state = .inFlight (flight .bid) ∧ BusWork.bid ≠ .poll ⟨5, toA⟩) :=
  ⟨⟨executes_of (by decide +kernel), settled_of (by decide +kernel), by decide +kernel⟩,
   ⟨executes_of (by decide +kernel), placesOk_of (by decide +kernel), by decide +kernel⟩,
   ⟨executes_of (by decide +kernel), placesOk_of (by decide +kernel), by decide +kernel⟩⟩

/-- L0 at a CLEAR_ALL: its latch held and code 0 in its mask or not, nothing held, its level ACTIVE, and DISABLED. -/
theorem witness_ClearAllEndsEveryNoticeAndRescans_lines :
    (∀ s, s = claimed.setLine 0 ⟨.inactive, 0, true⟩ ∨
        s = (claimed.setLine 0 ⟨.inactive, 0, true⟩).setCfg 48 { ready.cfg 48 with mask := 0x7FFE } ∨ s = claimed ∨
        s = lineClaimed.setLine 0 ⟨.active, 0, false⟩ ∨
        s = (claimed.setCfg 48 { ready.cfg 48 with enabled := false }).setSrc 48 SourceRt.reset →
      Executes (ask s .A 0x35 []) .A .clearAll ⟨0x35, []⟩ [] ∧ PlacesOk (ask s .A 0x35 []) ∧
        s.config.right = some .A) ∧
    (Src.ofLine 0 = 48 ∧ (ready.cfg 48).mask.getLsbD 0 = true ∧ (0x7FFE : CodeSet).getLsbD 0 = false) := by
  refine ⟨?_, by decide +kernel⟩
  rintro _ (rfl | rfl | rfl | rfl | rfl)
  all_goals exact ⟨executes_of (by decide +kernel), placesOk_of (by decide +kernel), rfl⟩

/-- L0 low, one sample short of four and two short; L0 high again. -/
theorem witness_LineSampleFiltersAndTicks :
    (let s := (ready.setLine 0 ⟨.inactive, 3, false⟩)
     SourcesOk s ∧ Settled s ∧ (s.line 0).filtered ≠ .active ∧ 4 ≤ (s.line 0).stability + 1) ∧
    (let s := (ready.setLine 0 ⟨.inactive, 2, false⟩)
     SourcesOk s ∧ (s.line 0).filtered ≠ .active ∧ (s.line 0).stability + 1 < 4) ∧
    (SourcesOk ready ∧ (ready.line 7).filtered = .inactive) ∧
    (SourcesOk State.reset ∧ State.reset.stage = .booting) ∧
    (let s := noted ready 0 { note (.claimed .A) PortSet.empty with serviceTimer := some 0 }
     SourcesOk s ∧ (s.notice 0).isSome = true) :=
  ⟨⟨sourcesOk_of (by decide +kernel), settled_of (by decide +kernel), by decide +kernel⟩,
   ⟨sourcesOk_of (by decide +kernel), by decide +kernel⟩, ⟨sourcesOk_of (by decide +kernel), by decide +kernel⟩,
   ⟨sourcesOk_of (by decide +kernel), rfl⟩, ⟨sourcesOk_of (by decide +kernel), by decide +kernel⟩⟩

def rising (mask : CodeSet) : State :=
  (ready.setLine 0 ⟨.inactive, 3, false⟩).setCfg 48 { ready.cfg 48 with mask := mask }

theorem witness_RisingLineReportsItsCondition : ∀ mask : CodeSet, mask = 0x7FFF ∨ mask = 0x7FFE →
    SourcesOk (rising mask) ∧ (rising mask).stage ≠ .booting ∧ ((rising mask).src (Src.ofLine 0)).state = .quiet ∧
      ((rising mask).line 0).filtered = .inactive ∧
      lineLow.getLsbD 0 = decide (((rising mask).cfg (Src.ofLine 0)).polarity = .activeHigh) ∧
      (rising mask).config.tables.device.filterCount.toNat = ((rising mask).line 0).stability + 1 ∧
      ((rising mask).src (Src.ofLine 0)).code15 = false ∧
      ((rising mask).cfg (Src.ofLine 0)).mask.getLsbD 0 = decide (mask = 0x7FFF) := by
  rintro _ (rfl | rfl)
  all_goals exact ⟨sourcesOk_of (by decide +kernel), by decide +kernel⟩

/-- A line that rises with its notice STRANDED and with its notice CLAIMED. -/
theorem witness_RisingLineReportsItsCondition_open :
    ∀ n, n = note .stranded PortSet.empty ∨ n = note (.claimed .A) PortSet.empty →
      let s := (noted (rising 0x7FFF) 48 n).setStranded (if n.state = .stranded then [48] else [])
      SourcesOk s ∧ s.stage ≠ .booting ∧ (s.src (Src.ofLine 0)).state = .opened ∧
        (s.line 0).filtered = .inactive ∧ s.notice (Src.ofLine 0) = some n ∧
        lineLow.getLsbD 0 = decide ((s.cfg (Src.ofLine 0)).polarity = .activeHigh) ∧
        s.config.tables.device.filterCount.toNat = (s.line 0).stability + 1 ∧ s.newConds (Src.ofLine 0) 1 = 1 := by
  rintro _ (rfl | rfl)
  all_goals exact ⟨sourcesOk_of (by decide +kernel), by decide +kernel⟩

/-- What WonRoundAppliesTheReport and ThirdFailureMakesTheSourceUnreachable ask of s besides the work on the bus. -/
def Usable (s : State) : Prop := Settled s ∧ SourcesOk s

/-- A CLAIMED notice and a STRANDED one; source 2 DISABLED; source 1 CLOSING. -/
theorem witness_WonRoundAppliesTheReport :
    (∀ s, s = ready ∨ s = disabled ∨ s = closing ∨ s = claimed ∨ s = stranded →
      Usable (onBus s .bid) ∧ (onBus s .bid).bus.state = .inFlight (flight .bid) ∧
        (flight .bid).afterClearAll = false) ∧
    ((0 : Src).isDirect = false ∧ (1 : BitVec 6).toNat = (0 : Src).num ∧ (47 : Src).isDirect = false ∧
      (48 : BitVec 6).toNat = (47 : Src).num) ∧
    ((onBus disabled .bid).src 1).state = .disabled ∧
    (((onBus ready .bid).src 0).state = .quiet ∧ (onBus ready .bid).newConds 0 1 ≠ 0 ∧
      (onBus ready .bid).newConds 0 0 = 0) ∧
    ((onBus claimed .bid).notice 0 = some (note (.claimed .A) PortSet.empty) ∧
      ¬ Notice.merges (note (.claimed .A) PortSet.empty)) ∧
    ((onBus stranded .bid).notice 0 = some (note .stranded PortSet.empty) ∧
      Notice.merges (note .stranded PortSet.empty)) ∧
    ((onBus closing .bid).src 0).state = .closing := by
  refine ⟨?_, by decide +kernel, by decide +kernel, by decide +kernel, ⟨by decide +kernel, ?_⟩,
    ⟨by decide +kernel, Or.inl rfl⟩, by decide +kernel⟩
  · rintro _ (rfl | rfl | rfl | rfl | rfl)
    all_goals exact ⟨⟨settled_of (by decide +kernel), sourcesOk_of (by decide +kernel)⟩, by decide +kernel⟩
  · rintro (h | h)
    · exact absurd h (by decide)
    · exact absurd h.1 (by decide)

/-- s with source 1's failure run at k. -/
def failing (s : State) (k : Nat) : State := s.setSrc 0 { s.src 0 with failures := k }

def polling (s : State) : State := onBus s (.poll ⟨0, toA⟩)

theorem witness_ThirdFailureMakesTheSourceUnreachable :
    (∀ s, s = polling ready ∨ s = polling (failing ready 1) ∨ s = polling (failing ready 2) ∨
        s = polling (failing ready 3) ∨ s = polling (failing claimed 2) ∨ s = polling (failing stranded 2) ∨
        s = polling (failing closing 2) →
      Usable s ∧ s.bus.state = .inFlight (flight (.poll ⟨0, toA⟩)) ∧ (s.src 0).state ≠ .disabled) ∧
    (let s := onBus disabled (.poll ⟨1, toA⟩); Usable s ∧ (s.src 1).state = .disabled) ∧
    (failedReply (flight .bid).window none ∧ failedReply 32 (some ⟨33, 0, fieldCheck 0⟩) ∧
      failedReply 32 (some ⟨32, 0, 0⟩)) ∧
    ((polling (failing ready 2)).cfg 0).enabled = true ∧ (polling (failing ready 2)).anyUnreachable = false ∧
    ((polling (failing ready 2)).src 0).state = .quiet := by
  refine ⟨?_, ⟨⟨settled_of (by decide +kernel), sourcesOk_of (by decide +kernel)⟩, by decide +kernel⟩, ?_,
    by decide +kernel⟩
  · rintro _ (rfl | rfl | rfl | rfl | rfl | rfl | rfl)
    all_goals exact ⟨⟨settled_of (by decide +kernel), sourcesOk_of (by decide +kernel)⟩, by decide +kernel⟩
  · exact ⟨trivial, Or.inl (by decide), Or.inr (by decide +kernel)⟩

theorem witness_LowestBidderIsHeard :
    ([3, 48, 1] : List (BitVec 6)) ≠ [] ∧ BitVec.ofNat 6 (0 : Src).num ∈ ([3, 48, 1] : List (BitVec 6)) ∧
      (∀ a ∈ ([3, 48, 1] : List (BitVec 6)), (0 : Src).num ≤ a.toNat) ∧
      (onBus ready .bid).bus.state = .inFlight (flight .bid) ∧ ((onBus ready .bid).src 0).state ≠ .disabled ∧
      (0 : Src).isDirect = false ∧ addressRead [3, 48, 1] = 1 ∧ (flight .bid).work = .bid := by decide +kernel

/-- Addresses at the edges of the field sources; a run of 0 and of 3. -/
theorem witness_BidRoundOutcomes :
    (∀ s, s = onBus ready .bid ∨ s = (onBus ready .bid).setBus { (onBus ready .bid).bus with bidRun := 3 } →
      Settled s ∧ s.bus.state = .inFlight (flight .bid) ∧ s.bus.suspended = false ∧ s.bus.bidRun < 4) ∧
    (decide (1 ≤ (1 : BitVec 6).toNat ∧ (1 : BitVec 6).toNat ≤ 48 ∧ fieldCheck 5 = fieldCheck 5) = true ∧
      decide (1 ≤ (48 : BitVec 6).toNat ∧ (48 : BitVec 6).toNat ≤ 48 ∧ fieldCheck 5 = fieldCheck 5) = true ∧
      (0 : BitVec 6).toNat = 0 ∧ 49 ≤ (49 : BitVec 6).toNat ∧ fieldCheck 5 ≠ 0) := by
  refine ⟨?_, by decide +kernel⟩
  rintro _ (rfl | rfl)
  all_goals exact ⟨settled_of (by decide +kernel), by decide +kernel⟩

/-- GARBLED at addresses 1 and 48. -/
theorem witness_BidRoundOutcomes_garbled :
    SourcesOk (onBus ready .bid) ∧ (flight .bid).afterClearAll = false ∧ (0 : Src).isDirect = false ∧
      (1 : BitVec 6).toNat = (0 : Src).num ∧ (47 : Src).isDirect = false ∧ (48 : BitVec 6).toNat = (47 : Src).num ∧
      (0 : BitVec 8) ≠ fieldCheck 5 :=
  ⟨sourcesOk_of (by decide +kernel), by decide +kernel⟩

def withWork (s : State) (cl : List ClearEntry) (pq : List PollEntry) (prev : PrevKind) : State :=
  s.setBus { s.bus with clearList := cl, pollQueue := pq, prev := prev }

theorem witness_ArbiterChoosesTheNextTransaction :
    (∀ s, s = ready ∨ s = withWork ready [⟨1, 3, 0⟩] [⟨2, toA⟩] .bid ∨ s = withWork ready [] [⟨2, toA⟩] .bid →
      Settled s ∧ s.bus.state = .gap .k125 ∧ s.stage = .running) ∧
    (decide (true = true ∧ ready.bus.suspended = false ∧ (ready.bus.prev ≠ .bid ∨ (ready.bus.clearList = [] ∧
      ready.bus.pollQueue = []))) = true) ∧
    (let s := idleBus ready
     Settled s ∧ s.stage = .running ∧ s.bus.clearList = [] ∧ s.bus.pollQueue = [] ∧ s.bus.state = .idle ∧
       s.bus.suspended = false) ∧
    (let s := idleBus (ready.setBus { ready.bus with bidRun := 4, suspended := true })
     Settled s ∧ s.stage = .running ∧ s.bus.suspended = true) ∧ ready.bus.state ≠ .idle := by
  refine ⟨?_, by decide +kernel, ⟨settled_of (by decide +kernel), by decide +kernel⟩,
    ⟨settled_of (by decide +kernel), by decide +kernel⟩, by decide +kernel⟩
  rintro _ (rfl | rfl | rfl)
  all_goals exact ⟨settled_of (by decide +kernel), by decide +kernel⟩

/-- FAT_LOW with work waiting on a busy bus, in SCANNING, and in BOOTING; the wires of each state of the bus. -/
theorem witness_ArbiterChoosesTheNextTransaction_busy :
    (∀ s, s = withWork ready [⟨1, 3, 0⟩] [⟨2, toA⟩] .bid ∨ s = withStage (onBus ready (.scan 0)) .scanning →
      Settled s ∧ s.stage ≠ .booting ∧ s.bus.state ≠ .idle ∧ BusNeverIdles s) ∧
    (Settled State.reset ∧ State.reset.stage = .booting) ∧
    (idleBus ready).bus.state = .idle ∧ ready.bus.state = .gap .k125 ∧
    (onBus ready .bid).bus.state = .inFlight (flight .bid) ∧
    ((flight .bid).slots (.round 63 0 0))[9]? = some none ∧
    2 * ((flight .bid).slots (.round 63 0 0)).length < 21 := by
  refine ⟨?_, ⟨settled_of (by decide +kernel), rfl⟩, by decide +kernel⟩
  rintro _ (rfl | rfl)
  all_goals exact ⟨settled_of (by decide +kernel), by decide +kernel, by decide +kernel,
    busNeverIdles_of (by decide +kernel)⟩

def scanning (cursor attempts : Nat) : State :=
  withStage (ready.setBus { ready.bus with cursor := cursor, attempts := attempts }) .scanning

def noField : State :=
  let s := scanning 1 0
  { s with config := { s.config with tables := defaultTables } }

theorem witness_ScanVisitsTheEnabledSources :
    (∀ c ∈ [1, 48, 49], Settled (scanning c 0) ∧ (scanning c 0).bus.state = .gap .k125 ∧
      (scanning c 0).stage = .scanning ∧ (scanning c 0).bus.clearList = [] ∧ (scanning c 0).bus.pollQueue = []) ∧
    ((0 : Src).num = 1 ∧ (47 : Src).num = 48 ∧ ((scanning 48 0).cfg 47).enabled = true) ∧
    (Settled noField ∧ ∀ j : Src, (noField.cfg j).enabled = false) ∧
    (∀ a ∈ [0, 1, 2], (onBus (scanning 1 a) (.scan 0)).bus.state = .inFlight (flight (.scan 0)) ∧
      Usable (onBus (scanning 1 a) (.scan 0))) ∧
    failedReply 32 none := by
  refine ⟨?_, by decide +kernel, ⟨settled_of (by decide +kernel), by decide +kernel⟩, ?_, trivial⟩
  · intro c hc
    simp only [List.mem_cons, List.not_mem_nil, or_false] at hc
    rcases hc with rfl | rfl | rfl
    all_goals exact ⟨settled_of (by decide +kernel), by decide +kernel⟩
  · intro a ha
    simp only [List.mem_cons, List.not_mem_nil, or_false] at ha
    rcases ha with rfl | rfl | rfl
    all_goals exact ⟨rfl, settled_of (by decide +kernel), sourcesOk_of (by decide +kernel)⟩

theorem witness_PollIsAnsweredAtEveryRequester :
    Usable (polling ready) ∧ (polling ready).bus.state = .inFlight (flight (.poll ⟨0, toA⟩)) ∧
      (flight .bid).afterClearAll = false ∧ 32 ≤ (flight .bid).window.toNat ∧
      failedReply (flight .bid).window (some ⟨33, 0, fieldCheck 0⟩) ∧ toA.has .A = true ∧ toA.has .B = false :=
  ⟨⟨settled_of (by decide +kernel), sourcesOk_of (by decide +kernel)⟩, rfl, rfl, by decide, Or.inl (by decide), rfl,
    rfl⟩

/-- The states of a source and of its notice at the end of a scan step and of a poll: QUIET, DISABLED, CLOSING, CLAIMED,
STRANDED, and with two failed exchanges behind it. -/
theorem witness_reportsAndFailures :
    ∀ s, s = ready ∨ s = (ready.setCfg 0 { ready.cfg 0 with enabled := false }).setSrc 0 SourceRt.reset ∨ s = closing ∨
        s = claimed ∨ s = stranded ∨ s = failing ready 2 →
      Usable (onBus (withStage s .scanning) (.scan 0)) ∧ Usable (polling s) := by
  rintro _ (rfl | rfl | rfl | rfl | rfl | rfl)
  all_goals exact ⟨⟨settled_of (by decide +kernel), sourcesOk_of (by decide +kernel)⟩, settled_of (by decide +kernel),
    sourcesOk_of (by decide +kernel)⟩

/-- A lead slot at the end of the window and one past it; a poll and a scan step; a clear. -/
theorem witness_PollIsAnsweredAtEveryRequester_slots :
    (flight (.scan 47)).work = .scan 47 ∧ (flight (.poll ⟨0, toA⟩)).work = .poll ⟨0, toA⟩ ∧
      (flight (.clear ⟨0, 1, 0⟩ false)).work = .clear ⟨0, 1, 0⟩ false ∧
      (flight .bid).window.toNat < (⟨33, 0, 0⟩ : FieldReply).lead ∧
      (⟨32, 0, 0⟩ : FieldReply).lead ≤ (flight .bid).window.toNat := by decide +kernel

def clearing (s : State) (attempts : Nat) (discarded : Bool) : State := onBus s (.clear ⟨0, 1, attempts⟩ discarded)

theorem witness_ClearReplyCompletesTheClear :
    (∀ s, s = clearing closing 0 false ∨ s = clearing (closing.setSrc 0 { closing.src 0 with arrears := 0 }) 0 false →
      Usable s ∧ s.bus.state = .inFlight (flight (.clear ⟨0, 1, 0⟩ false)) ∧ (s.src 0).state = .closing) ∧
    32 ≤ (flight .bid).window.toNat ∧
    (let s := clearing (closing.setSrc 0 { closing.src 0 with arrears := 0 }) 0 false
     s.newConds 0 (0 &&& 0x7FFF) ||| (s.src 0).arrears = 0) ∧
    (let s := clearing closing 0 false; s.newConds 0 (0 &&& 0x7FFF) ||| (s.src 0).arrears ≠ 0) := by
  refine ⟨?_, by decide +kernel⟩
  rintro _ (rfl | rfl)
  all_goals exact ⟨⟨settled_of (by decide +kernel), sourcesOk_of (by decide +kernel)⟩, by decide +kernel⟩

theorem witness_FailedClearIsRetriedThenGivenUp :
    (∀ a ∈ [0, 1, 2], ∀ k ∈ [0, 2, 3],
      let s := clearing (failing closing k) a false
      Usable s ∧ s.bus.state = .inFlight (flight (.clear ⟨0, 1, a⟩ false)) ∧ (s.src 0).state = .closing ∧
        (s.src 0).failures = k ∧ failedReply (flight .bid).window none) ∧
    (let s := clearing (closing.setSrc 0 { closing.src 0 with arrears := 0 }) 2 false
     Usable s ∧ (s.src 0).arrears = 0 ∧ (s.src 0).code15 = false) := by
  refine ⟨?_, ⟨settled_of (by decide +kernel), sourcesOk_of (by decide +kernel)⟩, by decide +kernel⟩
  intro a ha k hk
  simp only [List.mem_cons, List.not_mem_nil, or_false] at ha hk
  rcases ha with rfl | rfl | rfl <;> rcases hk with rfl | rfl | rfl
  all_goals exact ⟨⟨settled_of (by decide +kernel), sourcesOk_of (by decide +kernel)⟩, rfl, rfl, rfl, trivial⟩

theorem witness_OvertakenClearsAreNotCompleted :
    (∀ s, s = clearing ready 0 true ∨ s = ready.setBus { ready.bus with
        state := .inFlight { flight (.clear ⟨0, 1, 0⟩ false) with afterClearAll := true } } →
      Settled s ∧ (s.src 0).state ≠ .disabled ∧ (s.src 0).failures < 3) ∧
    (clearing ready 0 true).bus.state = .inFlight (flight (.clear ⟨0, 1, 0⟩ true)) ∧
    32 ≤ (flight .bid).window.toNat ∧ failedReply (flight .bid).window none := by
  refine ⟨?_, rfl, by decide, trivial⟩
  rintro _ (rfl | rfl)
  all_goals exact ⟨settled_of (by decide +kernel), by decide +kernel⟩

/-- A poll and a bid round that CLEAR_ALL has overtaken, with a failure run of 0 and of 2. -/
theorem witness_OvertakenClearsAreNotCompleted_others :
    (∀ w, w = BusWork.poll ⟨0, PortSet.empty⟩ ∨ w = .bid → ∀ k ∈ [0, 2],
      let s := (failing ready k).setBus { ready.bus with state := .inFlight { flight w with afterClearAll := true } }
      Settled s ∧ s.bus.state = .inFlight { flight w with afterClearAll := true } ∧ (s.src 0).failures < 3) ∧
    32 ≤ (flight .bid).window.toNat ∧ failedReply (flight .bid).window none ∧ (0 : Src).isDirect = false ∧
    (1 : BitVec 6).toNat = (0 : Src).num ∧ (0 : BitVec 8) ≠ fieldCheck 5 ∧ ready.bus.bidRun < 4 := by
  refine ⟨?_, by decide, trivial, by decide +kernel⟩
  intro w hw k hk
  simp only [List.mem_cons, List.not_mem_nil, or_false] at hk
  rcases hw with rfl | rfl <;> rcases hk with rfl | rfl
  all_goals exact ⟨settled_of (by decide +kernel), rfl, by decide +kernel⟩

/-- The stranded notice in a pass, at a HELD port and at three DETACHED ones. -/
def passing (mode : RouteMode) (rest : List Src) : State :=
  ((noted (withState ready .A (.held 2)) 0 { note .stranded PortSet.empty with mode := mode }).setStranded [0]).setPass
    (0 :: rest) false

/-- The port test of the statement is `State.eligible`, in every state. -/
theorem witness_PassWalksTheOldestStrandedNotice :
    (∀ (s : State) (n : Notice) (p : Port), s.eligible 0 n p = true ↔
      n.tried.has p = false ∧ ((∃ w, (s.eng p).state = .attached w) ∨ ∃ w, (s.eng p).state = .held w) ∧
        (s.portCfg p).classFilter.getLsbD n.cls.val = true ∧ 0 ∉ s.queue p ∧ n.offers.has p = false ∧
        (s.queue p).length < (s.portCfg p).backlog.toNat) ∧
    (∀ s n, (s, n) = (passing .directed [], { note .stranded PortSet.empty with mode := .directed }) ∨
        (s, n) = (passing .shared [1], { note .stranded PortSet.empty with mode := .shared }) →
      Settled s ∧ 0 ∈ s.stranded ∧ s.notice 0 = some n ∧ n.state = .stranded ∧ (∀ p ∈ Port.all, 0 ∉ s.queue p) ∧
        n.offers = PortSet.empty ∧ (s.cfg 0).route.ok = true ∧
        (∃ p ∈ (s.cfg 0).route.ports, s.eligible 0 n p = true)) ∧
    (let s := withState (passing .directed []) .A .detached
     Settled s ∧ ∀ p ∈ (s.cfg 0).route.ports, s.eligible 0 (note .stranded PortSet.empty) p = false) := by
  refine ⟨fun s n p => eligible_iff s 0 n p, ?_, settled_of (by decide +kernel), by decide +kernel⟩
  rintro s n (h | h)
  all_goals (cases h; exact ⟨settled_of (by decide +kernel), by decide +kernel⟩)

def expiring : State := offered.modNotice 0 (fun n => { n with offerTimers := n.offerTimers.set .A (some 0) })

/-- A SHARED notice that A is offered and B has a reference to. -/
def sharedExpiring : State :=
  (noted (withTx ready .B (.sending sent)) 0 { note .waiting toA with
    mode := .shared, offerTimers := PerPort.set (PerPort.all none) .A (some 0) }).setQueue .B [0]

theorem witness_OfferExpiryHandsTheNoticeOn :
    (∃ n, expiring.notice 0 = some n ∧ n.state = .waiting ∧ n.offers.has .A = true ∧
      n.offerTimers.get .A = some 0 ∧ 0 ∉ expiring.queue .A ∧ Usable expiring) ∧
    (∃ n, sharedExpiring.notice 0 = some n ∧ n.state = .waiting ∧ n.offers.has .A = true ∧
      n.offerTimers.get .A = some 0 ∧ 0 ∉ sharedExpiring.queue .A ∧ Settled sharedExpiring ∧
      0 ∈ sharedExpiring.queue .B) :=
  ⟨⟨_, rfl, by decide +kernel, by decide +kernel, by decide +kernel, by decide +kernel,
      settled_of (by decide +kernel), sourcesOk_of (by decide +kernel)⟩,
   ⟨_, rfl, by decide +kernel, by decide +kernel, by decide +kernel, by decide +kernel,
      settled_of (by decide +kernel), by decide +kernel⟩⟩

theorem witness_ServiceExpiryRevokesTheClaim :
    let s := noted ready 0 { note (.claimed .A) PortSet.empty with serviceTimer := some 0 }
    Settled s ∧ s.notice 0 = some { note (.claimed .A) PortSet.empty with serviceTimer := some 0 } ∧
      0 ∉ s.queue .A ∧ (note (.claimed .A) PortSet.empty).offers.has .A = false :=
  ⟨settled_of (by decide +kernel), by decide +kernel⟩

/-- Source 1 with a route from A to B. -/
def routed (s : State) : State := s.setCfg 0 { s.cfg 0 with route := ⟨.A, some .B, none⟩ }

/-- Two references at A, which sends a frame; the notices have no other place. -/
def crowded : State :=
  ((noted (noted (withTx ready .A (.sending sent)) 0 { note .waiting PortSet.empty with shown := false })
    1 { note .waiting PortSet.empty with shown := false, order := 1 })).setQueue .A [0, 1]

/-- The walks of the statements have notices to walk: an offer that expires, a claim that a service expiry or a RELEASE
ends, a reference that a detach hands back and one that a lowered limit evicts, each the only place of its notice. -/
theorem witness_walks :
    ((∀ q ∈ Port.all, 0 ∉ expiring.queue q) ∧
      (expiring.notice 0).all (fun n => Port.all.all fun q => q == .A || !n.offers.has q) = true) ∧
    ((∀ q ∈ Port.all, 0 ∉ claimed.queue q) ∧ (note (.claimed .A) PortSet.empty).offers = PortSet.empty) ∧
    (queued.queue .A = [0] ∧ (∀ q ∈ Port.all, q ≠ .A → 0 ∉ queued.queue q) ∧
      (queued.notice 0).any (fun n => n.state == .waiting && n.offers.isEmpty) = true) ∧
    (let new : PortCfg := { defaultPort with backlog := 1 }
     let s := write crowded 4 0 (encodePort new)
     Settled s ∧ (Instr.backlogLimitLower .A).fits s ⟨0x31, 4 :: 0 :: encodePort new⟩ = true ∧
       WriteTaken s .A ⟨0x31, 4 :: 0 :: encodePort new⟩ [] 4 0 (encodePort new) ∧ (s.queue .A).Nodup ∧
       1 ∈ (s.queue .A).drop new.backlog.toNat ∧ (∀ q ∈ Port.all, q ≠ .A → 1 ∉ s.queue q) ∧
       (s.notice 1).any (fun n => n.state == .waiting && n.offers.isEmpty) = true) :=
  ⟨by decide +kernel, by decide +kernel, by decide +kernel, settled_of (by decide +kernel), by decide +kernel,
    writeTaken_of (by decide +kernel), by decide +kernel⟩

/-- A walk with A tried takes the next port of the route, and strands the notice where the route has none. -/
theorem test_walks :
    let len := fun p => (ready.queue p).length
    (routed expiring).takes 0 toA len .A = false ∧ (routed expiring).takes 0 toA len .B = true ∧
      ((after (.offerExpiry .A 0) (routed expiring)).notice 0).any (fun n =>
        n.state == .waiting && n.tried == toA && n.offers == PortSet.empty.insert .B) = true ∧
      newcomers (routed expiring) (after (.offerExpiry .A 0) (routed expiring)) 0 .B = 0 ∧
      (after (.release .A) (ask claimed .A 0x21 [1, 1, 0])).stranded = [0] := by decide +kernel

def sending (s : State) (responses : List Response) (withdrawals : List Withdrawal) : State :=
  s.setEng .A { s.eng .A with tx := .sending sent, responses := responses, withdrawals := withdrawals }

/-- Auto-clear on, with STRANDED latched, which is in the E map. -/
def signalling : State :=
  ((sending ready [⟨0x24, .ok, []⟩] []).setPortCfg .A { ready.portCfg .A with autoClear := true }).setLatched .A 1

/-- A response, a withdrawal, the head of the queue below the window, and nothing: the stage, the window and the queue;
a response that carries E under auto-clear. -/
theorem witness_TransmitterChoosesTheNextFrame :
    (∀ s, s = sending ready [⟨0x24, .ok, []⟩] [⟨0, 1, .taken⟩] ∨ s = sending ready [] [⟨0, 1, .taken⟩] ∨
        s = queued ∨ s = withStage queued .scanning ∨ s = withState queued .A (.attached 0) ∨ s = sending ready [] [] ∨
        s = signalling →
      Settled s ∧ (s.eng .A).tx = .sending sent ∧ (s.eng .A).state ≠ .disabled) ∧
    (queued.stage = .running ∧ (queued.eng .A).state = .attached 2 ∧ queued.offerCount .A < 2 ∧
      queued.queue .A = 0 :: [] ∧ (queued.notice 0).isSome = true ∧ sent.body = .response ⟨0x24, .ok, []⟩) ∧
    ((withStage queued .scanning).stage ≠ .running ∧ (sending ready [] []).queue .A = [] ∧
      0 ≤ (withState queued .A (.attached 0)).offerCount .A) ∧
    ((signalling.portCfg .A).autoClear = true ∧ signalling.eFlag .A = true ∧ signalling.wFlag .A = false ∧
      (ready.portCfg .A).autoClear = false) := by
  refine ⟨?_, by decide +kernel, by decide +kernel, by decide +kernel⟩
  rintro _ (rfl | rfl | rfl | rfl | rfl | rfl | rfl)
  all_goals exact ⟨settled_of (by decide +kernel), by decide +kernel⟩

/-- A frame of each class, with and without flags. -/
theorem witness_TransmitterChoosesTheNextFrame_bytes :
    TxFrame.bytes ⟨true, true, true, .response ⟨0x24, .ok, []⟩⟩ = [0x78, 2, 0x24, 0] ++ [crc8 [0x78, 2, 0x24, 0]] ∧
    TxFrame.bytes ⟨false, true, false, .withdrawn ⟨32, 0x105, .cleared⟩⟩ =
      [0xD0, 4, 33, 5, 1, 3] ++ [crc8 [0xD0, 4, 33, 5, 1, 3]] ∧
    TxFrame.bytes ⟨true, false, false, .notice ⟨0, 2, 7, 0x8001, 9, true, true⟩⟩ =
      [0xA0, 8, 1, 2, 0, 7, 1, 0x80, 9, 3] ++ [crc8 [0xA0, 8, 1, 2, 0, 7, 1, 0x80, 9, 3]] := by decide +kernel

def noticeFrame (mark : BitVec 16) : TxFrame := ⟨false, false, false, .notice ⟨0, mark, 0, 1, 0, false, false⟩⟩

/-- The frame of the notice that stands and of an earlier one; offer limits of 500 and of 0; a frame that was cut off. -/
theorem witness_FrameEndStartsTheTimerAndAutoClears :
    ((withTx offered .A (.sending (noticeFrame 1))).eng .A).tx = .sending (noticeFrame 1) ∧
      offered.notice 0 = some (note .waiting toA) ∧ (note .waiting toA).mark = 1 ∧ toA.has .A = true ∧
      (offered.portCfg .A).offerLimit = 500 ∧ (note .waiting toA).mark ≠ 0 ∧ toA.has .B = false ∧
      ((withTx offered .A .cutOff).eng .A).tx = .cutOff := by decide +kernel

theorem witness_GoodFramesJoinTheRequestQueue :
    (∀ k ∈ [0, 3, 4], let s := ready.setEng .A { ready.eng .A with requests := List.replicate k ⟨0x24, []⟩ }
      s.stage ≠ .booting ∧ (s.eng .A).state ≠ .disabled ∧ (s.eng .A).rx = .receiving [] false ∧
        (s.eng .A).requests.length = k) ∧
    (⟨0x31, List.replicate 16 0⟩ : Frame).payload.length ≤ 16 ∧ (⟨0x24, []⟩ : Frame).payload.length ≤ 16 := by
  decide +kernel

/-- The first and the last character of a frame sent, and the bit time after it. -/
theorem witness_GoodFramesJoinTheRequestQueue_line :
    sent.bytes[0]? = some 0x40 ∧ (sent.bytes[4]?).isSome = true ∧ sent.bytes.length = 5 ∧ 11 * sent.bytes.length ≤ 55 ∧
      (Transmitter.sending sent).level 55 = some true ∧ (Transmitter.sending sent).level 0 = some false := by
  decide +kernel

/-- A character with a stop bit at space; even parity; LEN 17; a wrong CHECK; the gap; a held character. -/
theorem witness_ReceiverJudgesCharacters :
    (∀ chars ∈ [[], [0x24], [0x24, 0]], let s := withRx ready .A (.receiving chars false)
      s.stage ≠ .booting ∧ (s.eng .A).state ≠ .disabled ∧ (s.eng .A).rx = .receiving chars false) ∧
    ((⟨1, false, false⟩ : LinkChar).data ≠ 0 ∧ (⟨0, true, false⟩ : LinkChar).parity = true ∧
      oddParity ⟨0, false, true⟩ = false ∧ (([0x24] : List Byte).length = 1 ∧ 16 < (17 : Byte).toNat) ∧
      ([0x24, 0] : List Byte) = 0x24 :: byteOf ([] : List Byte).length :: [] ∧ (0 : Byte) ≠ crc8 [0x24, 0] ∧
      ([0x24] : List Byte) ≠ []) ∧
    ((withRx ready .A (.receiving [] true)).eng .A).rx = .receiving [] true ∧
    (State.reset.stage = .booting ∧ (withRx ready .A .hunt).stage ≠ .booting ∧
      ((withRx ready .A .hunt).eng .A).rx = .hunt ∧ ((withState ready .A .disabled).eng .A).state = .disabled) := by
  decide +kernel

theorem witness_BreakDetachesThePort :
    ready.stage ≠ .booting ∧ (ready.eng .A).state ≠ .disabled ∧ HoldingsOk ready ∧ Settled ready ∧
      ((withTx ready .A (.sending sent)).eng .A).tx = .sending sent ∧ HoldingsOk (withTx ready .A (.sending sent)) ∧
      Settled (withTx ready .A (.sending sent)) :=
  ⟨by decide +kernel, by decide +kernel, holdingsOk_of (by decide +kernel), settled_of (by decide +kernel), rfl,
    holdingsOk_of (by decide +kernel), settled_of (by decide +kernel)⟩

/-- A notice that is referenced at A and offered to B. -/
def queuedOffered : State :=
  (noted (withTx ready .A (.sending sent)) 0 { note .waiting (PortSet.empty.insert .B) with mode := .shared }).setQueue .A
    [0]

/-- The PORT entry of A, disabled. -/
def offEntry : PortCfg := { defaultPort with enabled := false }

/-- What a break, a DETACH and a disable of A hand back: an offer, a claim, a reference, a reference beside an offer to B,
and a reference while a pass runs. -/
theorem witness_handedBack :
    (∀ s, s = offered ∨ s = claimed ∨ s = queued ∨ s = queuedOffered ∨ s = queued.setPass [1] false →
      (Settled s ∧ s.stage ≠ .booting ∧ (s.eng .A).state ≠ .disabled ∧ HoldingsOk s) ∧
      (let u := ask s .A 0x11 []; Settled u ∧ Executes u .A .detach ⟨0x11, []⟩ []) ∧
      (let w := write s 4 0 (encodePort offEntry)
       Settled w ∧ HoldingsOk w ∧ (Instr.portDisable .A).fits w ⟨0x31, 4 :: 0 :: encodePort offEntry⟩ = true ∧
         WriteTaken w .A ⟨0x31, 4 :: 0 :: encodePort offEntry⟩ [] 4 0 (encodePort offEntry) ∧
         (w.portCfg .A).enabled = true)) ∧
    offered.notice 0 = some (note .waiting toA) ∧ toA.has .A = true ∧
    claimed.notice 0 = some (note (.claimed .A) PortSet.empty) ∧ (∀ q ∈ Port.all, 0 ∉ claimed.queue q) ∧
    queued.queue .A = [0] ∧ queued.delivery.passList = [] ∧ (queuedOffered.notice 0).any (fun n => n.offers.has .B) ∧
    (queued.setPass [1] false).delivery.passList ≠ [] ∧ queued.notice 1 = none ∧
    decodePort (encodePort offEntry) = some offEntry := by
  refine ⟨?_, by decide +kernel⟩
  rintro _ (rfl | rfl | rfl | rfl | rfl)
  all_goals exact ⟨⟨settled_of (by decide +kernel), by decide +kernel, by decide +kernel,
    holdingsOk_of (by decide +kernel)⟩, ⟨settled_of (by decide +kernel), executes_of (by decide +kernel)⟩,
    settled_of (by decide +kernel), holdingsOk_of (by decide +kernel), by decide +kernel,
    writeTaken_of (by decide +kernel), by decide +kernel⟩

theorem witness_DecodingChecksFollowTheTables :
    (⟨.claim, 0x20, some 3, false, false⟩ : RequestRow) ∈ requestRows := by decide

theorem witness_RefusedRequestsChangeNothing :
    (let s := ask ready .B 0x10 [5]
     Settled s ∧ (Instr.attach .B).request = some (.B, .attach) ∧ s.mayExecute .B = true ∧
       (s.eng .B).requests = [⟨0x10, [5]⟩] ∧ (Instr.attach .B).fits s ⟨0x10, [5]⟩ = true ∧
       s.decodeCheck .B .attach ⟨0x10, [5]⟩ = some .badArg) ∧
    (let s := ask ready .B 0x00 []
     Settled s ∧ s.mayExecute .B = true ∧ (s.eng .B).requests = [⟨0x00, []⟩] ∧ ReqKind.ofHead 0x00 = none) ∧
    (let s := ready.setEng .B { ready.eng .B with
       tx := .sending sent, responses := List.replicate 4 ⟨0x24, .ok, []⟩ }
     Settled s ∧ 4 ≤ (s.eng .B).responses.length) ∧
    (Settled State.reset ∧ State.reset.stage = .booting) ∧
    (Settled (withState ready .B .disabled) ∧ ((withState ready .B .disabled).eng .B).state = .disabled) ∧
    (Settled ready ∧ (ready.eng .B).requests = []) :=
  ⟨⟨settled_of (by decide +kernel), by decide +kernel⟩, ⟨settled_of (by decide +kernel), by decide +kernel⟩,
   ⟨settled_of (by decide +kernel), by decide +kernel⟩, ⟨settled_of (by decide +kernel), rfl⟩,
   ⟨settled_of (by decide +kernel), rfl⟩, ⟨settled_of (by decide +kernel), rfl⟩⟩

/-- Two offers at A. -/
def twoOffers (st : PortState) : State :=
  noted (noted (withState ready .A st) 0 (note .waiting toA)) 1 { note .waiting toA with order := 1 }

theorem witness_AttachSetsTheWindow :
    (let s := ask (withState ready .A .detached) .A 0x10 [4]
     Settled s ∧ Executes s .A .attach ⟨0x10, [4]⟩ [] ∧ (s.eng .A).state = .detached) ∧
    (let s := ask (twoOffers (.held 3)) .A 0x10 [2]
     Settled s ∧ Executes s .A .attach ⟨0x10, [2]⟩ [] ∧ (s.eng .A).state = .held 3 ∧ s.offerCount .A = 2) ∧
    (let s := ask (twoOffers (.attached 3)) .A 0x10 [2]
     Settled s ∧ Executes s .A .attach ⟨0x10, [2]⟩ [] ∧ (s.eng .A).state = .attached 3 ∧ s.offerCount .A = 2) ∧
    (let s := ask (twoOffers (.attached 3)) .A 0x10 [1]
     Settled s ∧ Executes s .A .attach ⟨0x10, [1]⟩ [] ∧ (s.eng .A).state ≠ .detached ∧ 1 < s.offerCount .A) :=
  ⟨⟨settled_of (by decide +kernel), executes_of (by decide +kernel), rfl⟩,
   ⟨settled_of (by decide +kernel), executes_of (by decide +kernel), rfl, by decide +kernel⟩,
   ⟨settled_of (by decide +kernel), executes_of (by decide +kernel), rfl, by decide +kernel⟩,
   ⟨settled_of (by decide +kernel), executes_of (by decide +kernel), by decide +kernel⟩⟩

theorem witness_HoldAndResumeMoveThePort :
    (∀ st, st = .attached 2 ∨ st = .held 2 →
      (let s := ask (withState ready .A st) .A 0x12 []
       Settled s ∧ Executes s .A .hold ⟨0x12, []⟩ [] ∧ (s.eng .A).state = st) ∧
      (let s := ask (withState ready .A st) .A 0x13 []
       Settled s ∧ Executes s .A .resume ⟨0x13, []⟩ [] ∧ (s.eng .A).state = st)) := by
  rintro _ (rfl | rfl)
  all_goals exact ⟨⟨settled_of (by decide +kernel), executes_of (by decide +kernel), rfl⟩,
    settled_of (by decide +kernel), executes_of (by decide +kernel), rfl⟩

theorem witness_DetachHandsEverythingBack :
    (let s := ask offered .A 0x11 []
     Settled s ∧ Executes s .A .detach ⟨0x11, []⟩ [] ∧ s.notice 0 = some (note .waiting toA) ∧ toA.has .A = true ∧
       0 ∉ s.queue .A) ∧
    (let s := ask claimed .A 0x11 []
     Settled s ∧ Executes s .A .detach ⟨0x11, []⟩ [] ∧ s.notice 0 = some (note (.claimed .A) PortSet.empty) ∧
       ∀ q ∈ Port.all, 0 ∉ s.queue q) :=
  ⟨⟨settled_of (by decide +kernel), executes_of (by decide +kernel), by decide +kernel⟩,
   ⟨settled_of (by decide +kernel), executes_of (by decide +kernel), by decide +kernel⟩⟩

def claimFrame (mark : Byte) : Frame := ⟨0x20, [1, mark, 0]⟩

/-- A CLAIM at B with mark 2; with mark 1 of a notice claimed by A, offered to A, stranded; at A of its own claim. -/
theorem witness_RefusedAndRepeatedClaims :
    Src.ofNum ((claimFrame 1).byte 0).toNat = some 0 ∧ (note .stranded PortSet.empty).mark = (claimFrame 1).mark ∧
    (let s := ask claimed .B 0x20 [1, 2, 0]
     Settled s ∧ Executes s .B .claim (claimFrame 2) [] ∧
       (s.notice 0).all (fun n => n.mark != (claimFrame 2).mark) = true) ∧
    (let s := ask ready .B 0x20 [1, 1, 0]
     Settled s ∧ Executes s .B .claim (claimFrame 1) [] ∧ s.notice 0 = none) ∧
    (let s := ask claimed .B 0x20 [1, 1, 0]
     Settled s ∧ Executes s .B .claim (claimFrame 1) [] ∧ s.notice 0 = some (note (.claimed .A) PortSet.empty)) ∧
    (let s := ask claimed .A 0x20 [1, 1, 0]
     Settled s ∧ Executes s .A .claim (claimFrame 1) [] ∧ s.notice 0 = some (note (.claimed .A) PortSet.empty)) ∧
    (let s := ask offered .B 0x20 [1, 1, 0]
     Settled s ∧ Executes s .B .claim (claimFrame 1) [] ∧ s.notice 0 = some (note .waiting toA) ∧
       toA.has .B = false) ∧
    (let s := ask stranded .B 0x20 [1, 1, 0]
     Settled s ∧ Executes s .B .claim (claimFrame 1) [] ∧ s.notice 0 = some (note .stranded PortSet.empty)) :=
  ⟨by decide, by decide,
   ⟨settled_of (by decide +kernel), executes_of (by decide +kernel), by decide +kernel⟩,
   ⟨settled_of (by decide +kernel), executes_of (by decide +kernel), by decide +kernel⟩,
   ⟨settled_of (by decide +kernel), executes_of (by decide +kernel), by decide +kernel⟩,
   ⟨settled_of (by decide +kernel), executes_of (by decide +kernel), by decide +kernel⟩,
   ⟨settled_of (by decide +kernel), executes_of (by decide +kernel), by decide +kernel⟩,
   ⟨settled_of (by decide +kernel), executes_of (by decide +kernel), by decide +kernel⟩⟩

theorem witness_ClaimTakesAnOfferedNotice :
    let s := ask (noted ready 0 (note .waiting toAB)) .A 0x20 [1, 1, 0]
    Settled s ∧ Executes s .A .claim (claimFrame 1) [] ∧ s.notice 0 = some (note .waiting toAB) ∧
      toAB.has .A = true ∧ toAB.has .B = true ∧ (s.clsCfg 0).closeMode = .manual ∧ toAB.has .C = false :=
  ⟨settled_of (by decide +kernel), executes_of (by decide +kernel), by decide +kernel⟩

def autoClass (s : State) : State := s.setClsCfg 0 ⟨.auto, 0⟩

theorem witness_AutoCloseEndsTheNoticeAtTheClaim :
    (∀ s, s = ready ∨ s = idleBus ready →
      let s := ask (autoClass (noted s 0 (note .waiting toAB))) .A 0x20 [1, 1, 0]
      Settled s ∧ Executes s .A .claim (claimFrame 1) [] ∧ s.notice 0 = some (note .waiting toAB) ∧
        (s.clsCfg 0).closeMode = .auto) ∧
    (0 : Src).isDirect = false ∧ ready.bus.state ≠ .idle ∧ (idleBus ready).bus.state = .idle ∧
      (idleBus ready).stage = .running ∧ (idleBus ready).bus.clearList = [] ∧ (idleBus ready).bus.fatLow = false := by
  refine ⟨?_, by decide +kernel⟩
  rintro _ (rfl | rfl)
  all_goals exact ⟨settled_of (by decide +kernel), executes_of (by decide +kernel), by decide +kernel⟩

/-- The notice of L0 offered to A and B, on a bus in a gap and on an IDLE one, with the line active and inactive. -/
theorem witness_AutoCloseEndsTheNoticeAtTheClaim_line :
    (∀ s, s = ready ∨ s = idleBus ready → ∀ l, l = Level.active ∨ l = Level.inactive →
      let s := ask (autoClass (noted (s.setLine 0 ⟨l, 0, true⟩) 48 (note .waiting toAB))) .A 0x20 [49, 1, 0]
      Settled s ∧ BusNeverIdles s ∧ Executes s .A .claim ⟨0x20, [49, 1, 0]⟩ [] ∧
        Src.ofNum ((⟨0x20, [49, 1, 0]⟩ : Frame).byte 0).toNat = some (Src.ofLine 0) ∧
        s.notice (Src.ofLine 0) = some (note .waiting toAB) ∧ (s.clsCfg 0).closeMode = .auto ∧
        (note .waiting toAB).conds.getLsbD 15 = false ∧ (s.src (Src.ofLine 0)).code15 = false ∧
        (s.line 0).filtered = l ∧ (s.src (Src.ofLine 0)).arrears = 0) := by
  rintro _ (rfl | rfl) _ (rfl | rfl)
  all_goals exact ⟨settled_of (by decide +kernel), busNeverIdles_of (by decide +kernel), executes_of (by decide +kernel),
    by decide +kernel⟩

theorem witness_ReleaseReturnsTheNotice :
    (let s := ask claimed .A 0x21 [1, 2, 0]
     Settled s ∧ Executes s .A .release ⟨0x21, [1, 2, 0]⟩ [] ∧ (s.notice 0).all (fun n => n.mark != 2) = true) ∧
    (let s := ask offered .A 0x21 [1, 1, 0]
     Settled s ∧ Executes s .A .release ⟨0x21, [1, 1, 0]⟩ [] ∧ s.notice 0 = some (note .waiting toA) ∧
       (note .waiting toA).state ≠ .claimed .A) ∧
    (let s := ask claimed .A 0x21 [1, 1, 0]
     Settled s ∧ Executes s .A .release ⟨0x21, [1, 1, 0]⟩ [] ∧
       s.notice 0 = some (note (.claimed .A) PortSet.empty) ∧ 0 ∉ s.queue .A) :=
  ⟨⟨settled_of (by decide +kernel), executes_of (by decide +kernel), by decide +kernel⟩,
   ⟨settled_of (by decide +kernel), executes_of (by decide +kernel), by decide +kernel⟩,
   ⟨settled_of (by decide +kernel), executes_of (by decide +kernel), by decide +kernel⟩⟩

theorem witness_CloseEndsTheNoticeAndClearsTheSource :
    (let s := ask claimed .A 0x22 [1, 2, 0, 1, 0]
     Settled s ∧ Executes s .A .close ⟨0x22, [1, 2, 0, 1, 0]⟩ [] ∧ (s.notice 0).all (fun n => n.mark != 2) = true) ∧
    (let s := ask offered .A 0x22 [1, 1, 0, 1, 0]
     Settled s ∧ Executes s .A .close ⟨0x22, [1, 1, 0, 1, 0]⟩ [] ∧ s.notice 0 = some (note .waiting toA)) ∧
    (∀ s, s = claimed ∨ s = idleBus claimed →
      let s := ask s .A 0x22 [1, 1, 0, 1, 0]
      Settled s ∧ Executes s .A .close ⟨0x22, [1, 1, 0, 1, 0]⟩ [] ∧
        s.notice 0 = some (note (.claimed .A) PortSet.empty)) ∧
    (note (.claimed .A) PortSet.empty).offers = PortSet.empty ∧ ready.bus.state ≠ .idle ∧ (idleBus claimed).bus.clearList = [] ∧ (idleBus claimed).bus.fatLow = false := by
  refine ⟨⟨settled_of (by decide +kernel), executes_of (by decide +kernel), by decide +kernel⟩,
    ⟨settled_of (by decide +kernel), executes_of (by decide +kernel), by decide +kernel⟩, ?_, by decide +kernel⟩
  rintro _ (rfl | rfl)
  all_goals exact ⟨settled_of (by decide +kernel), executes_of (by decide +kernel), by decide +kernel⟩

theorem witness_CloseOfADirectLineCompletesAtOnce :
    (∀ u, u = lineClaimed ∨ u = idleBus lineClaimed → ∀ l, l = Level.active ∨ l = Level.inactive →
      let s := ask (u.setLine 0 ⟨l, 0, true⟩) .A 0x22 [49, 1, 0, 1, 0]
      Settled s ∧ BusNeverIdles s ∧ Executes s .A .close ⟨0x22, [49, 1, 0, 1, 0]⟩ [] ∧
        Src.ofNum ((⟨0x22, [49, 1, 0, 1, 0]⟩ : Frame).byte 0).toNat = some (Src.ofLine 0) ∧
        s.notice (Src.ofLine 0) = some (note (.claimed .A) PortSet.empty) ∧
        (note (.claimed .A) PortSet.empty).offers = PortSet.empty ∧ (s.src (Src.ofLine 0)).code15 = false ∧ (s.src (Src.ofLine 0)).arrears = 0 ∧
        (note (.claimed .A) PortSet.empty).conds.getLsbD 15 = false) := by
  rintro _ (rfl | rfl) _ (rfl | rfl)
  all_goals exact ⟨settled_of (by decide +kernel), busNeverIdles_of (by decide +kernel), executes_of (by decide +kernel), by decide +kernel⟩

theorem witness_PollIsQueuedOrAnswered :
    (∀ s, s = withWork ready [] [⟨4, toA⟩] .fresh ∨ s = withWork ready [] [⟨6, toAB.erase .A⟩] .fresh ∨ s = ready ∨
        s = idleBus ready →
      let s := ask s .A 0x23 [7]
      Settled s ∧ Executes s .A .poll ⟨0x23, [7]⟩ [] ∧ Src.ofNum ((⟨0x23, [7]⟩ : Frame).byte 0).toNat = some 6 ∧
        s.pollOutstanding .A = s.bus.pollQueue.any (fun e => e.src == 4)) ∧
    (let s := ask ready .A 0x23 [48]
     Executes s .A .poll ⟨0x23, [48]⟩ [] ∧ (47 : Src).isDirect = false) ∧
    (let s := ask ready .A 0x23 [49]
     Settled s ∧ SourcesOk s ∧ Executes s .A .poll ⟨0x23, [49]⟩ [] ∧
       Src.ofNum ((⟨0x23, [49]⟩ : Frame).byte 0).toNat = some (Src.ofLine 0) ∧ (s.line 0).latch = false ∧
       (s.src (Src.ofLine 0)).state = .quiet) ∧
    (let s := ask (ready.setLine 7 ⟨.active, 0, false⟩) .A 0x23 [56]
     Settled s ∧ SourcesOk s ∧ Executes s .A .poll ⟨0x23, [56]⟩ [] ∧
       Src.ofNum ((⟨0x23, [56]⟩ : Frame).byte 0).toNat = some (Src.ofLine 7) ∧ (s.line 7).filtered = .active ∧
       s.newConds (Src.ofLine 7) 1 ≠ 0) ∧
    (let s := ask ((ready.setCfg 48 { ready.cfg 48 with enabled := false }).setSrc 48 SourceRt.reset) .A 0x23 [49]
     Settled s ∧ SourcesOk s ∧ Executes s .A .poll ⟨0x23, [49]⟩ [] ∧ (s.src (Src.ofLine 0)).state = .disabled) := by
  refine ⟨?_, ⟨executes_of (by decide +kernel), by decide⟩,
    ⟨settled_of (by decide +kernel), sourcesOk_of (by decide +kernel), executes_of (by decide +kernel),
      by decide +kernel⟩,
    ⟨settled_of (by decide +kernel), sourcesOk_of (by decide +kernel), executes_of (by decide +kernel),
      by decide +kernel⟩,
    ⟨settled_of (by decide +kernel), sourcesOk_of (by decide +kernel), executes_of (by decide +kernel),
      by decide +kernel⟩⟩
  rintro _ (rfl | rfl | rfl | rfl)
  all_goals exact ⟨settled_of (by decide +kernel), executes_of (by decide +kernel), by decide +kernel⟩

/-- A POLL of L0, whose latch holds {0}, with its notice STRANDED and with its notice CLAIMED. -/
theorem witness_PollIsQueuedOrAnswered_open :
    ∀ n, n = note .stranded PortSet.empty ∨ n = note (.claimed .A) PortSet.empty →
      let s := ask ((noted (ready.setLine 0 ⟨.inactive, 0, true⟩) 48 n).setStranded
        (if n.state = .stranded then [48] else [])) .B 0x23 [49]
      SourcesOk s ∧ Executes s .B .poll ⟨0x23, [49]⟩ [] ∧ s.notice (Src.ofLine 0) = some n ∧
        (s.src (Src.ofLine 0)).state = .opened ∧ (s.line 0).latch = true := by
  rintro _ (rfl | rfl)
  all_goals exact ⟨sourcesOk_of (by decide +kernel), executes_of (by decide +kernel), by decide +kernel⟩

/-- A READ_ENTRY that is executed in a settled state. -/
def readable (table index : Byte) : Bool :=
  let s := ask ready .A 0x30 [table, index]
  executesB s .A .readEntry ⟨0x30, [table, index]⟩ [] && settledB s

theorem witness_SweepStatusAndReadEntry_edges :
    (readable 0 1 && readable 0 56 && readable 1 1 && readable 1 56 && readable 2 0 && readable 2 7 && readable 3 0 &&
      readable 4 0 && readable 4 2 && readable 5 0) = true ∧ TablesInRange (ask ready .A 0x30 [0, 48]) ∧
    (47 : Src).isDirect = false :=
  ⟨by decide +kernel, ⟨tablesOk_of (by decide +kernel), fun _ _ h => nomatch h⟩, by decide⟩

theorem witness_SweepStatusAndReadEntry :
    (∀ s, s = ready ∨ s = stranded ∨ s = stranded.setPass [0] false →
      let s := ask s .A 0x24 []
      Settled s ∧ Executes s .A .sweep ⟨0x24, []⟩ []) ∧
    (ready.delivery.passList = [] ∧ ready.stranded = [] ∧ stranded.stranded = [0]) ∧
    (let s := ask ready .A 0x40 []; Settled s ∧ Executes s .A .status ⟨0x40, []⟩ []) := by
  refine ⟨?_, by decide +kernel, settled_of (by decide +kernel), executes_of (by decide +kernel)⟩
  rintro _ (rfl | rfl | rfl)
  all_goals exact ⟨settled_of (by decide +kernel), executes_of (by decide +kernel)⟩

theorem witness_AcknowledgeClearsNamedCodes :
    (let s := ask ready .A 0x41 [0xFF]; Settled s ∧ Executes s .A .ackStatus ⟨0x41, [0xFF]⟩ []) ∧
    (let s := ask stranded .A 0x41 [0x01]
     Settled s ∧ Executes s .A .ackStatus ⟨0x41, [0x01]⟩ [] ∧ s.present .A = 0x01) :=
  ⟨⟨settled_of (by decide +kernel), executes_of (by decide +kernel)⟩,
   ⟨settled_of (by decide +kernel), executes_of (by decide +kernel), by decide +kernel⟩⟩

def suspended (st : BusState) : State :=
  ready.setBus { ready.bus with state := st, bidRun := 4, suspended := true, fatLow := true }

theorem witness_ResumeFieldLiftsTheSuspension :
    (∀ s, s = ready ∨ s = suspended (.gap .k125) ∨ s = suspended .idle →
      let s := ask s .A 0x42 []
      Settled s ∧ Executes s .A .resumeField ⟨0x42, []⟩ []) ∧
    ready.bus.suspended = false ∧ (suspended .idle).bus.suspended = true ∧ (suspended .idle).bus.clearList = [] ∧
      (suspended .idle).bus.pollQueue = [] ∧ (suspended (.gap .k125)).bus.state ≠ .idle := by
  refine ⟨?_, by decide +kernel⟩
  rintro _ (rfl | rfl | rfl)
  all_goals exact ⟨settled_of (by decide +kernel), executes_of (by decide +kernel)⟩

theorem witness_RightIsTakenAndGiven :
    State.reset.stage = .booting ∧
    (∀ r ∈ [none, some Port.A, some Port.B],
      (settledB (ask (withRight ready r) .A 0x32 []) = true ∧
        executesB (ask (withRight ready r) .A 0x32 []) .A .takeRight ⟨0x32, []⟩ [] = true) ∧
      (settledB (ask (withRight ready r) .A 0x33 []) = true ∧
        executesB (ask (withRight ready r) .A 0x33 []) .A .giveRight ⟨0x33, []⟩ [] = true)) := by decide +kernel

theorem witness_StoreIsAccepted :
    (∀ s, s = withRight ready none ∨ s = withStore ready (.writing tables none) ∨ s = ready →
      let s := ask s .A 0x34 []
      Settled s ∧ Executes s .A .store ⟨0x34, []⟩ []) ∧
    (withRight ready none).config.right ≠ some .A ∧ ready.config.right = some .A ∧ ready.config.store = .idle := by
  refine ⟨?_, by decide +kernel⟩
  rintro _ (rfl | rfl | rfl)
  all_goals exact ⟨settled_of (by decide +kernel), executes_of (by decide +kernel)⟩

theorem witness_StoreCompletionVerifiesTheImage :
    (∀ d, d = none ∨ d = some Port.B →
      let s := withStore ready (.writing tables d)
      Settled s ∧ s.config.store = .writing tables d ∧ (s.eng .B).state ≠ .disabled) ∧
    ([] : List Byte) ≠ encodeTables tables := by
  refine ⟨?_, by decide +kernel⟩
  rintro _ (rfl | rfl)
  all_goals exact ⟨settled_of (by decide +kernel), by decide +kernel⟩

/-- The edges of the ranges: a filter count of 15 and of 16, at the holder, at another port, and during a STORE. -/
theorem witness_WritesAreRefusedAsTheRangesSay :
    (∀ s, s = ready ∨ s = withRight ready none ∨ s = withStore ready (.writing tables none) → ∀ n ∈ [15, 16],
      let s := write s 5 0 [0, 8, n]
      Settled s ∧ (Instr.writeDeviceEntry .A).request = some (.A, .writeEntry) ∧
        (Instr.writeDeviceEntry .A).fits s ⟨0x31, [5, 0, 0, 8, n]⟩ = true ∧
        Executes s .A .writeEntry ⟨0x31, [5, 0, 0, 8, n]⟩ []) ∧
    contentInRange 5 [0, 8, 15] ∧ ¬ contentInRange 5 [0, 8, 16] := by
  refine ⟨?_, ⟨by decide, by decide, by decide⟩, fun h => absurd h.2.2 (by decide)⟩
  intro s hs n hn
  simp only [List.mem_cons, List.not_mem_nil, or_false] at hn
  rcases hs with rfl | rfl | rfl <;> rcases hn with rfl | rfl
  all_goals exact ⟨settled_of (by decide +kernel), rfl, by decide +kernel, executes_of (by decide +kernel)⟩

def off : SourceCfg := { tables.sources.get 0 with enabled := false }

theorem witness_SourceDisableEndsTheNotice :
    (let s := write (clearing claimed 0 false) 0 1 (encodeSource off)
     PlacesOk s ∧ WriteTaken s .A ⟨0x31, 0 :: 1 :: encodeSource off⟩ [] 0 1 (encodeSource off) ∧
       Src.ofNum (1 : Byte).toNat = some 0 ∧ decodeSource 0 (encodeSource off) = some off ∧
       (s.cfg 0).enabled = true ∧ off.enabled = false ∧ s.notice 0 = some (note (.claimed .A) PortSet.empty) ∧
       s.bus.state = .inFlight (flight (.clear ⟨0, 1, 0⟩ false))) ∧
    (let s := write (noted ready 55 (note .waiting toA)) 0 56 (encodeSource off)
     PlacesOk s ∧ WriteTaken s .A ⟨0x31, 0 :: 56 :: encodeSource off⟩ [] 0 56 (encodeSource off) ∧
       Src.ofNum (56 : Byte).toNat = some (Src.ofLine 7) ∧ (s.cfg 55).enabled = true) :=
  ⟨⟨placesOk_of (by decide +kernel), writeTaken_of (by decide +kernel), by decide +kernel⟩,
   ⟨placesOk_of (by decide +kernel), writeTaken_of (by decide +kernel), by decide +kernel⟩⟩

def lineOff (l : Level) : State :=
  ((ready.setCfg 48 { ready.cfg 48 with enabled := false }).setSrc 48 SourceRt.reset).setLine 0 ⟨l, 0, false⟩

theorem witness_SourceWritesTakeEffect :
    (let new : SourceCfg := { tables.sources.get 0 with route := ⟨.B, none, none⟩ }
     let s := write ready 0 1 (encodeSource new)
     Settled s ∧ (Instr.sourceEnable .A).fits s ⟨0x31, 0 :: 1 :: encodeSource new⟩ = true ∧
       WriteTaken s .A ⟨0x31, 0 :: 1 :: encodeSource new⟩ [] 0 1 (encodeSource new) ∧
       decodeSource 0 (encodeSource new) = some new ∧ (s.cfg 0).enabled = new.enabled) ∧
    (let s := write disabled 0 2 (encodeSource (tables.sources.get 0))
     Settled s ∧ WriteTaken s .A ⟨0x31, 0 :: 2 :: encodeSource (tables.sources.get 0)⟩ [] 0 2
       (encodeSource (tables.sources.get 0)) ∧
       decodeSource 1 (encodeSource (tables.sources.get 0)) = some (tables.sources.get 0) ∧
       (s.cfg 1).enabled = false) ∧
    (∀ l, l = Level.inactive ∨ l = Level.active → ∀ m, m = 0x7FFF ∨ m = 0x7FFE →
      let new : SourceCfg := { tables.sources.get 0 with mask := m }
      let s := write (lineOff l) 0 49 (encodeSource new)
      Settled s ∧ WriteTaken s .A ⟨0x31, 0 :: 49 :: encodeSource new⟩ [] 0 49 (encodeSource new) ∧
        decodeSource (Src.ofLine 0) (encodeSource new) = some new ∧ (s.cfg (Src.ofLine 0)).enabled = false ∧
        (s.line 0).filtered = l) := by
  refine ⟨⟨settled_of (by decide +kernel), by decide +kernel, writeTaken_of (by decide +kernel), by decide +kernel⟩,
    ⟨settled_of (by decide +kernel), writeTaken_of (by decide +kernel), by decide +kernel⟩, ?_⟩
  rintro _ (rfl | rfl) _ (rfl | rfl)
  all_goals exact ⟨settled_of (by decide +kernel), writeTaken_of (by decide +kernel), by decide +kernel⟩

theorem witness_ClassOrderAndDeviceWrites :
    (∀ k ∈ [0, 7], let s := write ready 2 k [1, 0, 0]
      settledB s = true ∧ writeTakenB s .A ⟨0x31, [2, k, 1, 0, 0]⟩ [] 2 k [1, 0, 0] = true) ∧
    decodeClass [1, 0, 0] = some ⟨.auto, 0⟩ ∧
    (let s := write ready 5 0 [3, 8, 15]
     Settled s ∧ WriteTaken s .A ⟨0x31, [5, 0, 3, 8, 15]⟩ [] 5 0 [3, 8, 15] ∧
       decodeDevice [3, 8, 15] = some ⟨.k500, 8, 15⟩) ∧
    (∀ o, o = [0, 1, 2, 3, 4, 5, 6, 7] ∨ o = [7, 6, 5, 4, 3, 2, 1, 0] →
      let s := write ready 3 0 (encodeOrder o)
      Settled s ∧ WriteTaken s .A ⟨0x31, 3 :: 0 :: encodeOrder o⟩ [] 3 0 (encodeOrder o) ∧
        decodeOrder (encodeOrder o) = some o) := by
  refine ⟨by decide +kernel, by decide +kernel,
    ⟨settled_of (by decide +kernel), writeTaken_of (by decide +kernel), by decide +kernel⟩, ?_⟩
  rintro _ (rfl | rfl)
  all_goals exact ⟨settled_of (by decide +kernel), writeTaken_of (by decide +kernel), by decide +kernel⟩

theorem witness_PortEnableAndDisable :
    (let s := write (portOff .B) 4 1 (encodePort defaultPort)
     HoldingsOk s ∧ (Instr.portEnable .A).fits s ⟨0x31, 4 :: 1 :: encodePort defaultPort⟩ = true ∧
       WriteTaken s .A ⟨0x31, 4 :: 1 :: encodePort defaultPort⟩ [] 4 1 (encodePort defaultPort) ∧
       (1 : Byte).toNat = Port.B.index ∧ decodePort (encodePort defaultPort) = some defaultPort ∧
       (s.portCfg .B).enabled = false) ∧
    (let new : PortCfg := { defaultPort with enabled := false }
     let s := write ready 4 0 (encodePort new)
     HoldingsOk s ∧ (Instr.portDisable .A).fits s ⟨0x31, 4 :: 0 :: encodePort new⟩ = true ∧
       WriteTaken s .A ⟨0x31, 4 :: 0 :: encodePort new⟩ [] 4 0 (encodePort new) ∧
       (0 : Byte).toNat = Port.A.index ∧ decodePort (encodePort new) = some new ∧
       (s.portCfg .A).enabled = true) :=
  ⟨⟨holdingsOk_of (by decide +kernel), by decide +kernel, writeTaken_of (by decide +kernel), by decide +kernel⟩,
   ⟨holdingsOk_of (by decide +kernel), by decide +kernel, writeTaken_of (by decide +kernel), by decide +kernel⟩⟩

def limit (s : State) (q : Port) (n : Byte) : State := s.setPortCfg q { s.portCfg q with backlog := n }

/-- A limit raised from 1 to 2; lowered from 2 to 1 with a queue of none and of one, which is at the new limit. -/
theorem witness_BacklogLimitWrites :
    (let new : PortCfg := { defaultPort with backlog := 2 }
     let s := write (limit queued .A 1) 4 0 (encodePort new)
     Settled s ∧ (Instr.backlogLimitRaise .A).fits s ⟨0x31, 4 :: 0 :: encodePort new⟩ = true ∧
       WriteTaken s .A ⟨0x31, 4 :: 0 :: encodePort new⟩ [] 4 0 (encodePort new) ∧
       decodePort (encodePort new) = some new ∧ (s.queue .A).length ≤ (s.portCfg .A).backlog.toNat ∧
       (s.portCfg .A).backlog.toNat < new.backlog.toNat) ∧
    (∀ s, s = ready ∨ s = queued →
      let new : PortCfg := { defaultPort with backlog := 1 }
      let s := write (limit s .A 2) 4 0 (encodePort new)
      Settled s ∧ (Instr.backlogLimitLower .A).fits s ⟨0x31, 4 :: 0 :: encodePort new⟩ = true ∧
        WriteTaken s .A ⟨0x31, 4 :: 0 :: encodePort new⟩ [] 4 0 (encodePort new) ∧
        new.backlog.toNat < (s.portCfg .A).backlog.toNat ∧ (s.queue .A).Nodup) ∧
    ready.queue .A = [] ∧ queued.queue .A = [0] := by
  refine ⟨⟨settled_of (by decide +kernel), by decide +kernel, writeTaken_of (by decide +kernel), by decide +kernel⟩, ?_,
    by decide +kernel⟩
  rintro _ (rfl | rfl)
  all_goals exact ⟨settled_of (by decide +kernel), by decide +kernel, writeTaken_of (by decide +kernel),
    by decide +kernel⟩

/-- A write of the other fields of an entry: with the class filter as it was, and changed; a write of a disabled port. -/
theorem witness_BacklogLimitWrites_others :
    (∀ filter, filter = 0xFF ∨ filter = 0 →
      let new : PortCfg := { defaultPort with classFilter := filter, offerLimit := 0, autoClear := true, eMap := 0 }
      let s := write ready 4 2 (encodePort new)
      Settled s ∧ (Instr.writePortEntry .A).fits s ⟨0x31, 4 :: 2 :: encodePort new⟩ = true ∧
        (Instr.portEnable .A).fits s ⟨0x31, 4 :: 2 :: encodePort new⟩ = true ∧
        WriteTaken s .A ⟨0x31, 4 :: 2 :: encodePort new⟩ [] 4 2 (encodePort new) ∧
        (2 : Byte).toNat = Port.C.index ∧ decodePort (encodePort new) = some new ∧
        new.enabled = (s.portCfg .C).enabled ∧ new.rate = (s.portCfg .C).rate ∧
        new.backlog = (s.portCfg .C).backlog ∧ (s.queue .C).length ≤ (s.portCfg .C).backlog.toNat) ∧
    (let new : PortCfg := { defaultPort with enabled := false, wMap := 0 }
     let s := write (portOff .B) 4 1 (encodePort new)
     Settled s ∧ (Instr.portDisable .A).fits s ⟨0x31, 4 :: 1 :: encodePort new⟩ = true ∧
       WriteTaken s .A ⟨0x31, 4 :: 1 :: encodePort new⟩ [] 4 1 (encodePort new) ∧
       decodePort (encodePort new) = some new ∧ new.enabled = (s.portCfg .B).enabled) := by
  refine ⟨?_, settled_of (by decide +kernel), by decide +kernel, writeTaken_of (by decide +kernel), by decide +kernel⟩
  rintro _ (rfl | rfl)
  all_goals exact ⟨settled_of (by decide +kernel), by decide +kernel, by decide +kernel,
    writeTaken_of (by decide +kernel), by decide +kernel⟩

def fast : PortCfg := { defaultPort with rate := .r921600 }

theorem witness_LinkRateChangesAfterTheResponse :
    (∀ s, s = ready ∨ s = withTx ready .B (.sending sent) →
      let s := write s 4 1 (encodePort fast)
      Settled s ∧ (Instr.linkRateWrite .A).fits s ⟨0x31, 4 :: 1 :: encodePort fast⟩ = true ∧
        WriteTaken s .A ⟨0x31, 4 :: 1 :: encodePort fast⟩ [] 4 1 (encodePort fast) ∧
        decodePort (encodePort fast) = some fast ∧ fast.rate ≠ (s.portCfg .B).rate ∧ (s.eng .B).ratePending = none) ∧
    (let s := write ready 4 0 (encodePort fast)
     Settled s ∧ (Instr.linkRateWrite .A).fits s ⟨0x31, 4 :: 0 :: encodePort fast⟩ = true ∧
       WriteTaken s .A ⟨0x31, 4 :: 0 :: encodePort fast⟩ [] 4 0 (encodePort fast) ∧
       (s.eng .A).ratePending = none) ∧
    (∀ k ∈ [1, 2],
      let s := ready.setEng .A { ready.eng .A with tx := .sending sent, ratePending := some ⟨.r921600, k⟩ }
      (s.eng .A).tx = .sending sent ∧ sent.body = .response ⟨0x24, .ok, []⟩ ∧
        (s.eng .A).ratePending = some ⟨.r921600, k⟩) ∧
    (∀ k ∈ [0, 1],
      let s := offered.setEng .A { ready.eng .A with
        tx := .sending (noticeFrame 1), ratePending := some ⟨.r921600, k⟩ }
      (s.eng .A).tx = .sending (noticeFrame 1) ∧ (noticeFrame 1).body = .notice ⟨0, 1, 0, 1, 0, false, false⟩ ∧
        (s.eng .A).ratePending = some ⟨.r921600, k⟩) := by
  refine ⟨?_, ⟨settled_of (by decide +kernel), by decide +kernel, writeTaken_of (by decide +kernel), rfl⟩,
    by decide +kernel, by decide +kernel⟩
  rintro _ (rfl | rfl)
  all_goals exact ⟨settled_of (by decide +kernel), by decide +kernel, writeTaken_of (by decide +kernel),
    by decide +kernel⟩

/-- A rate that waits at the port of the write and at another; at a port that is detached, between frames and not. -/
def waiting (p : Port) (tx : Transmitter) (k : Nat) : State :=
  ready.setEng p { ready.eng p with tx := tx, ratePending := some ⟨.r921600, k⟩ }

theorem witness_LinkRateChangesAfterTheResponse_waits :
    (∀ p ∈ Port.all, ∀ k ∈ [0, 1, 3],
      let s := write (waiting p (.sending sent) k) 4 (byteOf p.index) (encodePort fast)
      settledB s = true ∧ fast.rate ≠ (s.portCfg p).rate ∧ (s.eng p).ratePending = some ⟨.r921600, k⟩ ∧
        (Instr.linkRateWrite .A).fits s ⟨0x31, 4 :: byteOf p.index :: encodePort fast⟩ = true ∧
        writeTakenB s .A ⟨0x31, 4 :: byteOf p.index :: encodePort fast⟩ [] 4 (byteOf p.index) (encodePort fast) = true) ∧
    (∀ tx, tx = Transmitter.idle ∨ tx = .sending sent ∨ tx = .cutOff →
      let s := waiting .A tx 1
      let new : PortCfg := { fast with enabled := false }
      let w := write s 4 0 (encodePort new)
      Executes (ask s .A 0x11 []) .A .detach ⟨0x11, []⟩ [] ∧ s.stage ≠ .booting ∧ (s.eng .A).state ≠ .disabled ∧
        WriteTaken w .A ⟨0x31, 4 :: 0 :: encodePort new⟩ [] 4 0 (encodePort new) ∧ (w.portCfg .A).enabled = true ∧
        decodePort (encodePort new) = some new) ∧
    ((waiting .A .cutOff 0).eng .A).tx = .cutOff := by
  refine ⟨by decide +kernel, ?_, rfl⟩
  rintro _ (rfl | rfl | rfl)
  all_goals exact ⟨executes_of (by decide +kernel), by decide +kernel, by decide +kernel,
    writeTaken_of (by decide +kernel), by decide +kernel⟩

/-- States in which the invariants hold and a step is taken, besides the reset state. -/
theorem witness_StepKeepsTheInvariants :
    (let s : State := { claimed with pending := [.gapEnd true] }
     Settled s ∧ SourcesOk s ∧ HoldingsOk s ∧ PlacesOk s ∧ TablesOk s.config.tables ∧
       (∃ t, step s = .next t)) ∧
    (let s : State := { stranded.setPass [0] false with pending := [.passWalk] }
     Settled s ∧ SourcesOk s ∧ HoldingsOk s ∧ PlacesOk s ∧ TablesOk s.config.tables ∧
       (∃ t, step s = .next t)) :=
  ⟨⟨settled_of (by decide +kernel), sourcesOk_of (by decide +kernel), holdingsOk_of (by decide +kernel),
      placesOk_of (by decide +kernel), tablesOk_of (by decide +kernel), _, rfl⟩,
   ⟨settled_of (by decide +kernel), sourcesOk_of (by decide +kernel), holdingsOk_of (by decide +kernel),
      placesOk_of (by decide +kernel), tablesOk_of (by decide +kernel), _, rfl⟩⟩

theorem witness_StepKeepsTheFieldBusConsistent :
    let s : State := { onBus ready .bid with pending := [.bidRoundEnd 63 0 0] }
    BidRunOk s ∧ BusNeverIdles s ∧ (∃ t, step s = .next t) := by
  refine ⟨⟨by decide, by decide, fun h => ?_⟩, fun _ h => ?_, _, rfl⟩
  · exact absurd h (by decide)
  · exact absurd h (by decide)

theorem witness_StepKeepsTheFieldBusConsistent_booting :
    let s : State := { State.reset with pending := [.fatLow] }
    s.stage = .booting ∧ BusRestsInBooting s ∧ (∃ t, step s = .next t) := ⟨rfl, fun _ => rfl, _, rfl⟩

theorem witness_StepKeepsThePortEngineBounds :
    let s : State := { ready with pending := [.linkCharacter .A (goodChar 0x24)] }
    LinkBounds s ∧ ResponsesOk s ∧ (∃ t, step s = .next t) := by
  refine ⟨⟨?_, ?_, ?_, ?_, ?_, ?_⟩, ⟨?_, ?_, ?_, ?_⟩, _, rfl⟩
  case refine_6 =>
    intro p chars held h
    cases p <;> (cases h; rfl)
  all_goals first
    | (intro p; cases p <;> decide)
    | decide

theorem witness_StepKeepsTheOrders :
    let s : State := { queued with pending := [.frameSent .A] }
    OrdersOk s ∧ (∃ t, step s = .next t) := by
  refine ⟨⟨?_, ?_, ?_, ?_, ?_, sourcesOk_of (by decide +kernel), ?_⟩, _, rfl⟩
  · intro p
    cases p <;> decide
  · decide
  · intro i n h
    have key : allNotices queued (fun _ n => decide (n.order < queued.notices.nextOrder)) = true := by decide +kernel
    exact of_decide_eq_true (allNotices_get key h)
  · intro p
    cases p <;> decide
  · decide
  · intro h
    exact absurd h (by decide)

theorem witness_StepKeepsHoldingsWithAttachedPorts :
    let s : State := { withStage stranded .scanning with pending := [.gapEnd false] }
    HoldingsOk s ∧ OffersOnlyInRunning s ∧ (∃ t, step s = .next t) := by
  refine ⟨holdingsOk_of (by decide +kernel), fun _ i n h => ?_, _, rfl⟩
  have key : allNotices (withStage stranded .scanning) (fun _ n => n.offers == PortSet.empty &&
      allPorts (fun p => !(n.state == .claimed p)) && n.offerTimers == PerPort.all none && n.serviceTimer == none) =
      true := by decide +kernel
  have hn := allNotices_get key h
  simp only [Bool.and_eq_true, beq_iff_eq] at hn
  refine ⟨hn.1.1.1, fun p => ?_, hn.1.2, hn.2⟩
  have := allPorts_get hn.1.1.2 p
  simpa using this

theorem witness_StepKeepsTablesInRange :
    let s : State := { withStore ready (.writing edgeTables none) with pending := [.storeComplete [] 0] }
    TablesInRange s ∧ (∃ t, step s = .next t) := by
  refine ⟨⟨tablesOk_of (by decide +kernel), fun t d h => ?_⟩, _, rfl⟩
  cases h
  exact tablesOk_of (by decide +kernel)

end Sys2Proof.Tests
end

/-! SUPPORT. Latched codes, the places of a notice, and what each transmitter takes from its queue at the end of an event. -/

namespace Sys2Proof.Machine

/-! ### Latched codes that no change loses (R165) -/

/-- Every code latched in s is latched in t. -/
def LatchedKept (s t : State) : Prop := ∀ p, s.latched p &&& t.latched p = s.latched p

theorem LatchedKept.of_attention {s t : State} (h : t.attention = s.attention) : LatchedKept s t := fun p => by
  unfold State.latched
  rw [h, BitVec.and_self]

theorem LatchedKept.trans {s t u : State} (h : LatchedKept s t) (k : LatchedKept t u) : LatchedKept s u := fun p => by
  rw [← h p, BitVec.and_assoc, k p]

theorem LatchedKept.getLsbD {s t : State} (h : LatchedKept s t) {p : Port} {n : Nat}
    (hn : (s.latched p).getLsbD n = true) : (t.latched p).getLsbD n = true := by
  have key := congrArg (fun m => m.getLsbD n) (h p)
  simpa [hn] using key

theorem latchRisen_latchedKept (old s : State) : LatchedKept s (State.latchRisen old s) := fun p => by
  rw [latchRisen_latched]
  ext n
  simp only [BitVec.getElem_and, BitVec.getElem_or]
  cases (s.latched p)[n] <;> simp

/-! ### Where a notice is referenced or offered (R53) -/

theorem placedAt_iff {s : State} {i : Src} {n : Notice} (h : s.notice i = some n) (p : Port) :
    s.placedAt i p = true ↔ i ∈ s.queue p ∨ n.offers.has p = true := by
  simp [State.placedAt, h]

theorem hasPlace_iff_placedAt (s : State) (i : Src) : s.hasPlace i = true ↔ ∃ p, s.placedAt i p = true := by
  rw [hasPlace_iff]
  cases hn : s.notice i with
  | none => simp [State.placedAt, hn]
  | some n => simp [placedAt_iff hn, exists_or]

/-- A port that gains no fewer offers has no fewer. -/
theorem offerCount_mono {s t : State} {p : Port}
    (h : ∀ j n, s.notice j = some n → n.offers.has p = true → ∃ m, t.notice j = some m ∧ m.offers.has p = true) :
    s.offerCount p ≤ t.offerCount p := by
  refine (List.monotone_filter_right Src.all fun j hj => ?_).length_le
  cases hn : s.notice j with
  | none => simp [hn] at hj
  | some n =>
    obtain ⟨m, hm, ho⟩ := h j n hn (by simpa [hn] using hj)
    simp [hm, ho]

/-! ### What the transmitters take at the end of an event (R94 to R97, R143) -/

/-- A notice that is offered to p by the NOTICE frame that begins there (R96). -/
def Notice.offerTo (n : Notice) (p : Port) : Notice := { n with offers := n.offers.insert p, shown := true }

/-- The source whose notice the transmitter of p takes from its queue at the end of an event, if it takes one. -/
def State.headTaken (s : State) (p : Port) : Option Src :=
  if (s.eng p).tx = .idle ∧ s.canTakeHead p = true then
    (s.queue p).head?.filter (fun i => (s.notice i).isSome)
  else none

theorem headTaken_some {s : State} {p : Port} {i : Src} (h : s.headTaken p = some i) :
    (s.eng p).tx = .idle ∧ s.canTakeHead p = true ∧ (∃ rest, s.queue p = i :: rest) ∧ ∃ n, s.notice i = some n := by
  unfold State.headTaken at h
  split at h
  · rename_i hc
    rw [Option.filter_eq_some_iff, List.head?_eq_some_iff] at h
    exact ⟨hc.1, hc.2, h.1, Option.isSome_iff_exists.mp h.2⟩
  · cases h

/-- What R94 asks before a head is taken. -/
theorem canTakeHead_iff (s : State) (p : Port) : s.canTakeHead p = true ↔
    s.stage = .running ∧ (s.eng p).responses = [] ∧ (s.eng p).withdrawals = [] ∧ s.queue p ≠ [] ∧
      ∃ w, (s.eng p).state = .attached w ∧ s.offerCount p < w := by
  unfold State.canTakeHead
  cases h : (s.eng p).state <;> simp [h, and_assoc]

theorem headTaken_congr {s t : State} {p : Port} (hst : t.stage = s.stage) (htx : (t.eng p).tx = (s.eng p).tx)
    (hs : (t.eng p).state = (s.eng p).state) (hr : (t.eng p).responses = (s.eng p).responses)
    (hw : (t.eng p).withdrawals = (s.eng p).withdrawals) (hq : t.queue p = s.queue p)
    (ho : t.offerCount p = s.offerCount p) (hn : ∀ j, (t.notice j).isSome = (s.notice j).isSome) :
    t.headTaken p = s.headTaken p := by
  have htake : t.canTakeHead p = s.canTakeHead p := by
    rw [Bool.eq_iff_iff, canTakeHead_iff, canTakeHead_iff, hst, hs, hr, hw, hq, ho]
  simp only [State.headTaken, htake, htx, hq, hn]

theorem applyRate_keeps (s : State) (p q : Port) :
    (∃ r o x, (s.applyRate p).eng q = { s.eng q with rate := r, ratePending := o, rx := x }) ∧
      ((s.eng q).rateDue = false → (s.applyRate p).eng q = s.eng q) ∧ (p ≠ q → (s.applyRate p).eng q = s.eng q) := by
  unfold State.applyRate
  dsimp only
  split
  · rename_i r hr
    split
    · rw [State.eng_setEng]
      by_cases hpq : p = q
      · subst hpq
        refine ⟨⟨_, _, _, by rw [if_pos rfl]⟩, fun hd => ?_, fun h => absurd rfl h⟩
        simp [PortEngine.rateDue, hr] at hd
      · rw [if_neg hpq]
        exact ⟨⟨_, _, _, rfl⟩, fun _ => rfl, fun _ => rfl⟩
    · exact ⟨⟨_, _, _, rfl⟩, fun _ => rfl, fun _ => rfl⟩
  · exact ⟨⟨_, _, _, rfl⟩, fun _ => rfl, fun _ => rfl⟩


/-- A due link rate changes the engine of its port alone, and neither its transmitter nor its lists (R131). -/
theorem applyRate_headTaken (s : State) (p q : Port) : (s.applyRate p).headTaken q = s.headTaken q := by
  obtain ⟨⟨r, o, x, he⟩, -, -⟩ := applyRate_keeps s p q
  obtain ⟨h2, h3⟩ : (s.applyRate p).notices = s.notices ∧ (s.applyRate p).delivery = s.delivery ∧
      (s.applyRate p).stage = s.stage := by
    unfold State.applyRate
    dsimp only
    repeat' split
    all_goals exact ⟨rfl, rfl, rfl⟩
  refine headTaken_congr h3.2 (by rw [he]) (by rw [he]) (by rw [he]) (by rw [he]) ?_ ?_ fun j => ?_
  · simp only [State.queue, h3.1]
  · simp only [State.offerCount, State.notice, h2]
  · simp only [State.notice, h2]

/-- The transmitter of p takes the notice of i from its queue (R96). -/
theorem chooseFrame_taken {s : State} {p : Port} {i : Src} {n : Notice} (h : s.headTaken p = some i)
    (hn : s.notice i = some n) : s.chooseFrame p =
      ((s.removeRef i p).setNotice i (some (n.offerTo p))).beginFrame p false
        (.notice (noticeInfo i n ((s.removeRef i p).cfg i).tag)) := by
  obtain ⟨htx, htake, ⟨rest, hq⟩, -⟩ := headTaken_some h
  obtain ⟨-, hr, hw, -, w, hst, -⟩ := (canTakeHead_iff s p).mp htake
  unfold State.chooseFrame State.takeHead
  simp only [htx, hst, hr, hw, htake, hq, hn]
  rfl

/-- A transmitter that takes no notice leaves the notices, the queues and the latched sets. -/
theorem chooseFrame_notTaken {s : State} {p : Port} (h : s.headTaken p = none) :
    (s.chooseFrame p).notices = s.notices ∧ (s.chooseFrame p).delivery = s.delivery ∧
      (s.chooseFrame p).attention.latched = s.attention.latched := by
  unfold State.chooseFrame
  dsimp only
  split
  · rename_i hc
    split
    · exact ⟨rfl, rfl, rfl⟩
    · split
      · exact ⟨rfl, rfl, rfl⟩
      · split
        · rename_i htake
          rw [State.headTaken, if_pos ⟨hc.1, htake⟩] at h
          unfold State.takeHead
          split
          · exact ⟨rfl, rfl, rfl⟩
          · rename_i i rest hq
            rw [hq] at h
            split
            · exact ⟨rfl, rfl, rfl⟩
            · rename_i n hn
              simp [hn] at h
        · exact ⟨rfl, rfl, rfl⟩
  · exact ⟨rfl, rfl, rfl⟩

end Sys2Proof.Machine

/-! SUPPORT. What the end of an event (`State.settle`) does to notices, queues and latched codes. -/

namespace Sys2Proof.Machine

theorem offEngines_fields {s t : State} (h : t.offEngines = s.offEngines) :
    t.stage = s.stage ∧ t.sources = s.sources ∧ t.notices = s.notices ∧ t.delivery = s.delivery ∧ t.bus = s.bus ∧
      t.attention = s.attention ∧ t.config = s.config := by
  simp only [State.offEngines, Prod.mk.injEq] at h
  simp [h]

theorem offDelivery_fields {s t : State} (h : t.offDelivery = s.offDelivery) :
    t.stage = s.stage ∧ t.sources = s.sources ∧ t.notices = s.notices ∧ t.bus = s.bus ∧ t.engines = s.engines ∧
      t.attention = s.attention ∧ t.config = s.config := by
  simp only [State.offDelivery, Prod.mk.injEq] at h
  simp [h]

theorem offerTo_has (n : Notice) (p q : Port) : (n.offerTo p).offers.has q = (decide (p = q) || n.offers.has q) :=
  PortSet.has_insert n.offers p q

/-- What the end of an event at port p does: with the notice of i taken, its reference becomes an offer; with none
taken, notices and queues stand (R96). -/
theorem settlePort_parts (s : State) (p : Port) :
    (s.headTaken p = none → (s.settlePort p).notices = s.notices ∧ (s.settlePort p).delivery = s.delivery) ∧
    (∀ i n, s.headTaken p = some i → s.notice i = some n →
      (s.settlePort p).notices = (s.setNotice i (some (n.offerTo p))).notices ∧
      ∀ q, (s.settlePort p).queue q = if p = q then (s.queue p).filter (fun j => j != i) else s.queue q) ∧
    (s.settlePort p).attention.latched = s.attention.latched := by
  obtain ⟨-, -, hn, hd, -, ha, -⟩ := offEngines_fields (applyRate_offEngines s p)
  have hrate := applyRate_headTaken s p p
  have taken (i : Src) (n : Notice) (h : s.headTaken p = some i) (hi : s.notice i = some n) :=
    chooseFrame_taken (s := s.applyRate p) (n := n) (hrate.trans h) (by simpa only [State.notice, hn] using hi)
  have hrem (i : Src) := offDelivery_fields (removeRef_offDelivery (s.applyRate p) i p)
  refine ⟨fun h => ?_, fun i n h hi => ?_, ?_⟩
  · obtain ⟨h1, h2, -⟩ := chooseFrame_notTaken (hrate.trans h)
    exact ⟨h1.trans hn, h2.trans hd⟩
  · obtain ⟨-, -, h1, -⟩ := hrem i
    unfold State.settlePort
    rw [taken i n h hi]
    refine ⟨?_, fun q => ?_⟩
    · show (((s.applyRate p).removeRef i p).setNotice i (some (n.offerTo p))).notices = _
      simp only [State.setNotice, h1, hn]
    · show ((s.applyRate p).removeRef i p).queue q = _
      rw [removeRef_queue]
      simp only [State.queue, hd]
  · cases h : s.headTaken p with
    | none => exact (chooseFrame_notTaken (hrate.trans h)).2.2.trans (congrArg Attention.latched ha)
    | some i =>
      obtain ⟨n, hi⟩ := (headTaken_some h).2.2.2
      obtain ⟨-, -, -, -, -, h1, -⟩ := hrem i
      unfold State.settlePort
      rw [taken i n h hi]
      show ((s.applyRate p).removeRef i p).attention.latched = _
      rw [h1, ha]

theorem settlePort_notice (s : State) (p : Port) (j : Src) : (s.settlePort p).notice j =
    if s.headTaken p = some j then (s.notice j).map (fun n => n.offerTo p) else s.notice j := by
  obtain ⟨hnone, hsome, -⟩ := settlePort_parts s p
  cases h : s.headTaken p with
  | none => simp [State.notice, (hnone h).1]
  | some i =>
    obtain ⟨n, hi⟩ := (headTaken_some h).2.2.2
    have := congrArg (fun r : NoticeTable => r.records.get j) (hsome i n h hi).1
    refine this.trans ((State.notice_setNotice s i _ j).trans ?_)
    by_cases hij : i = j
    · subst hij; simp [hi]
    · simp [hij]

theorem settlePort_queue (s : State) (p q : Port) : (s.settlePort p).queue q =
    (s.queue q).filter (fun j => !decide (p = q ∧ s.headTaken p = some j)) := by
  obtain ⟨hnone, hsome, -⟩ := settlePort_parts s p
  cases h : s.headTaken p with
  | none => simp [State.queue, (hnone h).2]
  | some i =>
    obtain ⟨n, hi⟩ := (headTaken_some h).2.2.2
    rw [(hsome i n h hi).2]
    by_cases hpq : p = q
    · subst hpq
      rw [if_pos rfl]
      refine List.filter_congr fun j _ => ?_
      simp [bne, eq_comm, beq_eq_decide]
    · simp [hpq]

theorem settlePort_strandedList (s : State) (p : Port) :
    (s.settlePort p).stranded = s.stranded ∧ (s.settlePort p).notices.nextOrder = s.notices.nextOrder := by
  obtain ⟨hnone, hsome, -⟩ := settlePort_parts s p
  cases h : s.headTaken p with
  | none => simp only [State.stranded, (hnone h).1, and_self]
  | some i =>
    obtain ⟨n, hi⟩ := (headTaken_some h).2.2.2
    simp only [State.stranded, (hsome i n h hi).1]
    exact ⟨rfl, rfl⟩

theorem settlePort_offLinks (s : State) (p : Port) : (s.settlePort p).offLinks = s.offLinks :=
  (chooseFrame_offLinks _ p).trans (offLinks_of_offEngines (applyRate_offEngines s p))

/-- A frame begins in the engine of its own port alone. -/
theorem settlePort_eng_ne (s : State) {p q : Port} (h : p ≠ q) : (s.settlePort p).eng q = s.eng q := by
  have hrem (t : State) (i : Src) : (t.removeRef i p).eng q = t.eng q := by
    obtain ⟨-, -, -, -, he, -⟩ := offDelivery_fields (removeRef_offDelivery t i p)
    simp only [State.eng, he]
  rw [← (applyRate_keeps s p q).2.2 h]
  unfold State.settlePort State.chooseFrame State.takeHead State.beginFrame
  dsimp only
  repeat' split
  all_goals simp [h, hrem]

/-- What one port takes does not change what another takes. -/
theorem settlePort_headTaken_ne (s : State) {p q : Port} (h : p ≠ q) :
    (s.settlePort p).headTaken q = s.headTaken q := by
  have heng := settlePort_eng_ne s h
  have hoffers (j : Src) : (match (s.settlePort p).notice j with | some n => n.offers.has q | none => false) =
      (match s.notice j with | some n => n.offers.has q | none => false) := by
    rw [settlePort_notice]
    by_cases hj : s.headTaken p = some j
    · rw [if_pos hj]
      cases s.notice j <;> simp [offerTo_has, h]
    · rw [if_neg hj]
  refine headTaken_congr (offLinks_fields (settlePort_offLinks s p)).2.1 (by rw [heng]) (by rw [heng]) (by rw [heng])
    (by rw [heng]) ?_ (congrArg List.length (List.filter_congr fun j _ => hoffers j)) fun j => ?_
  · simp [settlePort_queue, h]
  · rw [settlePort_notice]
    split <;> simp

/-- Between w and t the notice of i stays as it is: in its places, a reference possibly turned into an offer, with its
source as it is. -/
structure NoticeStays (w t : State) (i : Src) : Prop where
  record : ∀ n, w.notice i = some n → ∃ o sh, t.notice i = some { n with offers := o, shown := sh }
  absent : w.notice i = none → t.notice i = none
  placed : ∀ p, t.placedAt i p = w.placedAt i p
  stranded : i ∈ w.stranded → i ∈ t.stranded
  order : w.notices.nextOrder ≤ t.notices.nextOrder
  source : t.src i = w.src i

theorem NoticeStays.trans {s t u : State} {i : Src} (h : NoticeStays s t i) (k : NoticeStays t u i) :
    NoticeStays s u i where
  record n hn := by
    obtain ⟨o, sh, hm⟩ := h.record n hn
    obtain ⟨o', sh', hm'⟩ := k.record _ hm
    exact ⟨o', sh', hm'⟩
  absent hn := k.absent (h.absent hn)
  placed p := (k.placed p).trans (h.placed p)
  stranded hi := k.stranded (h.stranded hi)
  order := le_trans h.order k.order
  source := k.source.trans h.source

theorem NoticeStays.of_eq {w t : State} (hs : t.sources = w.sources) (hn : t.notices = w.notices)
    (hq : ∀ p, t.queue p = w.queue p) (i : Src) : NoticeStays w t i where
  record n h := ⟨n.offers, n.shown, by simpa only [State.notice, hn] using h⟩
  absent h := by simpa only [State.notice, hn] using h
  placed p := by simp only [State.placedAt, hq, State.notice, hn]
  stranded h := by simpa only [State.stranded, hn] using h
  order := by rw [hn]
  source := by simp only [State.src, hs]

theorem settlePort_noticeStays (s : State) (p : Port) (i : Src) : NoticeStays s (s.settlePort p) i where
  record n hn := by
    rw [settlePort_notice, hn]
    split
    · exact ⟨_, _, rfl⟩
    · exact ⟨_, _, rfl⟩
  absent hn := by rw [settlePort_notice, hn]; simp
  placed q := by
    rw [Bool.eq_iff_iff]
    cases hn : s.notice i with
    | none =>
      have hnot : s.headTaken p ≠ some i := fun h => by
        obtain ⟨n, hi⟩ := (headTaken_some h).2.2.2
        rw [hn] at hi; cases hi
      simp [State.placedAt, settlePort_notice, settlePort_queue, hn, hnot]
    | some n =>
      rw [placedAt_iff hn]
      by_cases h : s.headTaken p = some i
      · rw [placedAt_iff (n := n.offerTo p) (by rw [settlePort_notice, if_pos h, hn]; rfl), settlePort_queue,
          offerTo_has]
        obtain ⟨rest, hq⟩ := (headTaken_some h).2.2.1
        by_cases hpq : p = q
        · subst hpq; simp [hq]
        · simp [hpq]
      · rw [placedAt_iff (n := n) (by rw [settlePort_notice, if_neg h, hn]), settlePort_queue]
        simp [h]
  stranded hi := by rw [(settlePort_strandedList s p).1]; exact hi
  order := (settlePort_strandedList s p).2.ge
  source := by simp only [State.src, (offLinks_fields (settlePort_offLinks s p)).2.2.1]

/-- The end of an event leaves every notice in its places. -/
theorem settle_noticeStays (s : State) (i : Src) : NoticeStays s s.settle i :=
  ((settlePort_noticeStays s .A i).trans (settlePort_noticeStays _ .B i)).trans (settlePort_noticeStays _ .C i)

theorem settle_latchedKept (s : State) : LatchedKept s s.settle := by
  have port (t : State) (p : Port) : LatchedKept t (t.settlePort p) := fun q => by
    simp only [State.latched, (settlePort_parts t p).2.2, BitVec.and_self]
  exact ((port s .A).trans (port _ .B)).trans (port _ .C)

/-- What B and C take is settled by the state before the event's end, as what A takes. -/
theorem settle_headTaken (s : State) : (s.settlePort .A).headTaken .B = s.headTaken .B ∧
    ((s.settlePort .A).settlePort .B).headTaken .C = s.headTaken .C :=
  ⟨settlePort_headTaken_ne s (by decide),
    (settlePort_headTaken_ne _ (by decide)).trans (settlePort_headTaken_ne s (by decide))⟩

/-- A notice that no port takes stands. -/
theorem settle_notice_of_notTaken {s : State} {j : Src} (h : ∀ p, s.headTaken p ≠ some j) :
    s.settle.notice j = s.notice j := by
  obtain ⟨hB, hC⟩ := settle_headTaken s
  unfold State.settle
  rw [settlePort_notice, if_neg (hC ▸ h .C), settlePort_notice, if_neg (hB ▸ h .B), settlePort_notice, if_neg (h .A)]

/-- Where no port takes a notice, notices and queues stand. -/
theorem settle_of_noneTaken {s : State} (h : ∀ p, s.headTaken p = none) :
    s.settle.notices = s.notices ∧ s.settle.delivery = s.delivery := by
  obtain ⟨hB, hC⟩ := settle_headTaken s
  obtain ⟨nA, dA⟩ := (settlePort_parts s .A).1 (h .A)
  obtain ⟨nB, dB⟩ := (settlePort_parts _ .B).1 (hB.trans (h .B))
  obtain ⟨nC, dC⟩ := (settlePort_parts _ .C).1 (hC.trans (h .C))
  exact ⟨nC.trans (nB.trans nA), dC.trans (dB.trans dA)⟩

/-- After an event that began with every transmitter at rest, and that took no offer back, a port takes a notice only
into its empty queue's place. -/
theorem headTaken_of_settled {s u : State} {p : Port} {j : Src} (hs : Settled s) (hst : u.stage = s.stage)
    (htx : (u.eng p).tx = (s.eng p).tx) (hstate : (u.eng p).state = (s.eng p).state)
    (ho : s.offerCount p ≤ u.offerCount p) (h : u.headTaken p = some j) : s.queue p = [] := by
  obtain ⟨hidle, htake, -⟩ := headTaken_some h
  obtain ⟨hrun, -, -, -, w, hw, hlt⟩ := (canTakeHead_iff u p).mp htake
  rw [hstate] at hw
  obtain ⟨hr, hwd, hno⟩ := (hs.quiet p (htx ▸ hidle)).2 (by rw [hw]; simp)
  by_contra hq
  rw [(canTakeHead_iff s p).mpr ⟨hst ▸ hrun, hr, hwd, hq, w, hw, lt_of_le_of_lt ho hlt⟩] at hno
  cases hno

end Sys2Proof.Machine

/-! SUPPORT. What the end of an event does to the port engines. -/

namespace Sys2Proof.Machine

theorem chooseFrame_engKept {s : State} {p : Port}
    (h : (s.eng p).tx = .idle → (s.eng p).state ≠ .disabled → (s.eng p).responses = []) :
    (s.chooseFrame p).eng p = { s.eng p with
      withdrawals := ((s.chooseFrame p).eng p).withdrawals, tx := ((s.chooseFrame p).eng p).tx } := by
  have hrem (i : Src) : (s.removeRef i p).eng p = s.eng p := by
    obtain ⟨-, -, -, -, he, -⟩ := offDelivery_fields (removeRef_offDelivery s i p)
    simp only [State.eng, he]
  unfold State.chooseFrame
  dsimp only
  split
  · rename_i hc
    split
    · rename_i hr
      rw [h hc.1 hc.2] at hr
      cases hr
    · split
      · simp [State.beginFrame]
      · unfold State.takeHead
        repeat' split
        all_goals simp [State.beginFrame, hrem]
  · rfl

/-- A transmitter that has no due rate and no response to send leaves of its engine all but the withdrawal list and the
frame in transmission (R131, R143). -/
theorem settlePort_engKept {s : State} {p : Port}
    (h : (s.eng p).tx = .idle → (s.eng p).rateDue = false ∧
      ((s.eng p).state ≠ .disabled → (s.eng p).responses = [])) :
    (s.settlePort p).eng p = { s.eng p with
      withdrawals := ((s.settlePort p).eng p).withdrawals, tx := ((s.settlePort p).eng p).tx } := by
  have hrate : (s.applyRate p).eng p = s.eng p := by
    by_cases hidle : (s.eng p).tx = .idle
    · exact (applyRate_keeps s p p).2.1 (h hidle).1
    · rw [applyRate_busy hidle]
  rw [← hrate] at h
  have := chooseFrame_engKept (s := s.applyRate p) (p := p) (fun hidle => (h hidle).2)
  rwa [hrate] at this

/-- At the end of an event the engine of a port changes at its own turn alone. -/
theorem settle_eng (s : State) (p : Port) :
    ∃ t : State, t.eng p = s.eng p ∧ s.settle.eng p = (t.settlePort p).eng p := by
  unfold State.settle
  cases p
  · exact ⟨s, rfl, by rw [settlePort_eng_ne _ (by decide), settlePort_eng_ne _ (by decide)]⟩
  · exact ⟨s.settlePort .A, settlePort_eng_ne _ (by decide), by rw [settlePort_eng_ne _ (by decide)]⟩
  · exact ⟨(s.settlePort .A).settlePort .B,
      by rw [settlePort_eng_ne _ (by decide), settlePort_eng_ne _ (by decide)], rfl⟩

/-- The end of an event that made no response keeps the port engines, but for withdrawal lists and transmissions. -/
theorem settle_linksKept {s : State} (h : ∀ p, (s.eng p).tx = .idle → (s.eng p).rateDue = false ∧
    ((s.eng p).state ≠ .disabled → (s.eng p).responses = [])) : LinksKept s s.settle := fun p => by
  obtain ⟨t, ht, he⟩ := settle_eng s p
  rw [he, ← ht]
  exact settlePort_engKept (by rw [ht]; exact h p)

/-- A response that has been made is owed after the event's end (R141, R143). -/
theorem settle_owes {s : State} {p : Port} {r : Response} (h : r ∈ (s.eng p).responses) : s.settle.owes p r := by
  obtain ⟨t, ht, he⟩ := settle_eng s p
  unfold State.owes
  rw [he]
  rw [← ht] at h
  obtain ⟨⟨_, _, _, hrate⟩, -, -⟩ := applyRate_keeps t p p
  have hr : r ∈ ((t.applyRate p).eng p).responses := by rw [hrate]; exact h
  unfold State.settlePort
  generalize t.applyRate p = u at hr
  unfold State.chooseFrame
  dsimp only
  split
  · cases hq : (u.eng p).responses with
    | nil => rw [hq] at hr; cases hr
    | cons a rest =>
      rw [hq] at hr
      rcases List.mem_cons.mp hr with rfl | hr
      · right
        simp [State.beginFrame]
      · left
        simpa [State.beginFrame] using hr
  · exact Or.inl hr

end Sys2Proof.Machine

/-! SUPPORT. What a placement walk leaves, said once for its parts and for the whole. -/

namespace Sys2Proof.Machine

/-! ### What a walk leaves (R83 to R87) -/

/-- No queue has changed between s and t but by the reference of i, which it has gained once at most. -/
def QueueGains (s t : State) (i : Src) : Prop :=
  ∀ p, t.queue p = s.queue p ∨ (i ∉ s.queue p ∧ (t.queue p).Perm (i :: s.queue p))

theorem QueueGains.of_eq {s t : State} (h : ∀ p, t.queue p = s.queue p) (i : Src) : QueueGains s t i :=
  fun p => Or.inl (h p)

theorem QueueGains.trans {s t u : State} {i : Src} (h : QueueGains s t i) (k : QueueGains t u i) :
    QueueGains s u i := fun p => by
  rcases h p with hq | ⟨hi, hq⟩ <;> rcases k p with kq | ⟨ki, kq⟩
  · exact Or.inl (kq.trans hq)
  · exact Or.inr ⟨hq ▸ ki, hq ▸ kq⟩
  · exact Or.inr ⟨hi, kq ▸ hq⟩
  · exact absurd (hq.mem_iff.mpr List.mem_cons_self) ki

theorem QueueGains.others {s t : State} {i : Src} (h : QueueGains s t i) (p : Port) :
    ((t.queue p).filter (fun j => j != i)).Perm ((s.queue p).filter (fun j => j != i)) := by
  rcases h p with hq | ⟨-, hq⟩
  · rw [hq]
  · refine (hq.filter _).trans ?_
    rw [List.filter_cons_of_neg (by simp)]

/-- Between s and t the notice of i may have been walked: it alone has changed, in its state and its tried set, a queue
has at most gained its reference, and no latched code is lost. -/
structure WalkStep (s t : State) (i : Src) : Prop where
  rest : t.offNotices = s.offNotices
  record : ∀ n, s.notice i = some n → ∃ st tr, t.notice i = some { n with state := st, tried := tr }
  absent : s.notice i = none → t.notice i = none
  others : ∀ j, j ≠ i → t.notice j = s.notice j
  order : t.notices.nextOrder = s.notices.nextOrder
  queue : QueueGains s t i
  stranded : ∀ j, j ≠ i → (j ∈ t.stranded ↔ j ∈ s.stranded)
  latched : LatchedKept s t

theorem WalkStep.refl (s : State) (i : Src) : WalkStep s s i where
  rest := rfl
  record _ hn := ⟨_, _, hn⟩
  absent h := h
  others _ _ := rfl
  order := rfl
  queue _ := Or.inl rfl
  stranded _ _ := Iff.rfl
  latched := .of_attention rfl

theorem WalkStep.trans {s t u : State} {i : Src} (h : WalkStep s t i) (k : WalkStep t u i) : WalkStep s u i where
  rest := k.rest.trans h.rest
  record n hn := by
    obtain ⟨_, _, hm⟩ := h.record n hn
    obtain ⟨_, _, hm'⟩ := k.record _ hm
    exact ⟨_, _, hm'⟩
  absent hn := k.absent (h.absent hn)
  others j hj := (k.others j hj).trans (h.others j hj)
  order := k.order.trans h.order
  queue := h.queue.trans k.queue
  stranded j hj := (k.stranded j hj).trans (h.stranded j hj)
  latched := h.latched.trans k.latched

/-- A change of a notice's state and tried set. -/
theorem modNotice_walkStep (s : State) (i : Src) {f : Notice → Notice}
    (hf : ∀ n, ∃ st tr, f n = { n with state := st, tried := tr }) : WalkStep s (s.modNotice i f) i where
  rest := (modNotice_rest s i f).1
  record n hn := by
    obtain ⟨st, tr, h⟩ := hf n
    exact ⟨st, tr, by rw [modNotice_some hn, h]⟩
  absent hn := by rw [modNotice_notice, if_pos rfl, hn]; rfl
  others j hj := by rw [modNotice_notice, if_neg (Ne.symm hj)]
  order := by unfold State.modNotice; split <;> rfl
  queue p := Or.inl (modNotice_queue s i f p)
  stranded j _ := by rw [(modNotice_rest s i f).2.2.2]
  latched := .of_attention (modNotice_rest s i f).2.2.1

theorem setStranded_walkStep (s : State) (i : Src) {l : List Src} (h : ∀ j, j ≠ i → (j ∈ l ↔ j ∈ s.stranded)) :
    WalkStep s (s.setStranded l) i where
  rest := rfl
  record _ hn := ⟨_, _, hn⟩
  absent h := h
  others _ _ := rfl
  order := rfl
  queue _ := Or.inl rfl
  stranded := h
  latched := .of_attention rfl

theorem latchRisen_walkStep (old s : State) (i : Src) : WalkStep s (State.latchRisen old s) i where
  rest := latchRisen_offNotices old s
  record _ hn := ⟨_, _, hn⟩
  absent h := h
  others _ _ := rfl
  order := rfl
  queue _ := Or.inl rfl
  stranded _ _ := Iff.rfl
  latched := latchRisen_latchedKept old s

theorem insertRef_walkStep {s : State} {i : Src} {p : Port} (h : i ∉ s.queue p) :
    WalkStep s (s.insertRef p i) i where
  rest := rfl
  record _ hn := ⟨_, _, hn⟩
  absent h := h
  others _ _ := rfl
  order := rfl
  queue q := by
    rw [insertRef_queue]
    by_cases hpq : p = q
    · subst hpq
      rw [if_pos rfl]
      exact Or.inr ⟨h, insertByKey_perm _ _ _⟩
    · rw [if_neg hpq]
      exact Or.inl rfl
  stranded _ _ := Iff.rfl
  latched := latchRisen_latchedKept s (s.setQueue p (insertByKey s.queueKey i (s.queue p)))

theorem giveRef_walkStep {s : State} {i : Src} {p : Port} (h : i ∉ s.queue p) : WalkStep s (s.giveRef i p) i := by
  unfold State.giveRef
  refine ((insertRef_walkStep h).trans (modNotice_walkStep _ i fun _ => ⟨_, _, rfl⟩)).trans
    (setStranded_walkStep _ i fun j hj => ?_)
  simp [hj]

theorem strand_walkStep (s : State) (i : Src) : WalkStep s (s.strand i) i := by
  unfold State.strand
  refine ((modNotice_walkStep s i fun _ => ⟨_, _, rfl⟩).trans (setStranded_walkStep _ i fun j hj => ?_)).trans
    (latchRisen_walkStep s _ i)
  rw [mem_insertByKey, (modNotice_rest s i _).2.2.2]
  simp [hj]

theorem eligible_notReferenced {s : State} {i : Src} {n : Notice} {p : Port} (h : s.eligible i n p = true) :
    i ∉ s.queue p := ((eligible_iff s i n p).mp h).2.2.2.1

theorem placeRefs_walkStep (s : State) (i : Src) (n : Notice) : WalkStep s (s.placeRefs i n) i := by
  unfold State.placeRefs
  split
  · split
    · rename_i hf
      exact giveRef_walkStep (eligible_notReferenced (List.find?_some hf))
    · exact .refl s i
  · generalize (s.cfg i).route.ports = l
    induction l generalizing s with
    | nil => exact .refl s i
    | cons p l ih =>
      rw [List.foldl_cons]
      by_cases he : s.eligible i n p = true
      · rw [if_pos he]
        exact (giveRef_walkStep (eligible_notReferenced he)).trans (ih _)
      · rw [if_neg he]
        exact ih s

theorem walk_walkStep (s : State) (i : Src) : WalkStep s (s.walk i) i := by
  unfold State.walk
  split
  · exact .refl s i
  · dsimp only
    split
    · exact placeRefs_walkStep s i _
    · exact (placeRefs_walkStep s i _).trans (strand_walkStep _ i)

theorem walkIfBare_walkStep (s : State) (i : Src) : WalkStep s (s.walkIfBare i) i := by
  unfold State.walkIfBare
  split
  · exact .refl s i
  · exact walk_walkStep s i

theorem WalkStep.isSome {s t : State} {i : Src} (h : WalkStep s t i) (j : Src) :
    (t.notice j).isSome = (s.notice j).isSome := by
  by_cases hij : j = i
  · subst hij
    cases hn : s.notice j with
    | none => rw [h.absent hn]
    | some n =>
      obtain ⟨_, _, hm⟩ := h.record n hn
      rw [hm]; rfl
  · rw [h.others j hij]

/-- A walked WAITING notice stands somewhere, or it is STRANDED and listed (R69, R85). -/
theorem walk_ends {s : State} {i : Src} {n : Notice} (h : s.notice i = some n) (hw : n.state = .waiting) :
    ∃ m, (s.walk i).notice i = some m ∧
      ((m.state = .waiting ∧ (s.walk i).hasPlace i = true) ∨ (m.state = .stranded ∧ i ∈ (s.walk i).stranded)) := by
  have hplaced : (s.placeRefs i n).notice i = some n := by
    have hself : ({ n with state := .waiting } : Notice) = n := by rw [← hw]
    unfold State.placeRefs
    split
    · split
      · rw [giveRef_notice h, hself]
      · exact h
    · have := (foldl_giveRef i n (s.cfg i).route.ports s n h).2
      rwa [hself, ite_self] at this
  have hwalk : s.walk i = if (s.placeRefs i n).hasPlace i then s.placeRefs i n else (s.placeRefs i n).strand i := by
    unfold State.walk
    rw [h]
    simp [hw]
  rw [hwalk]
  split
  · rename_i hs
    exact ⟨n, hplaced, Or.inl ⟨hw, hs⟩⟩
  · refine ⟨_, modNotice_some hplaced _, Or.inr ⟨rfl, ?_⟩⟩
    show i ∈ insertByKey _ i _
    simp

end Sys2Proof.Machine

/-! SUPPORT. What `SourcesOk` looks at, and the operations that leave it. -/

namespace Sys2Proof.Machine

/-! ### What SourcesOk looks at -/

/-- What `SourcesOk` looks at of one source: whether the stage is BOOTING, whether the entry is enabled, whether a
record exists, and the runtime fields. -/
structure SourceView where
  booting : Bool
  enabled : Bool
  recorded : Bool
  rt : SourceRt

def State.sourceView (s : State) (i : Src) : SourceView :=
  ⟨decide (s.stage = .booting), (s.cfg i).enabled, (s.notice i).isSome, s.src i⟩

/-- `SourcesOk` of one source. -/
structure SourceView.Ok (v : SourceView) : Prop where
  record : v.recorded = true ↔ v.rt.state = .opened
  arrears : v.rt.state = .quiet ∨ v.rt.state = .disabled → v.rt.arrears = 0
  failures : v.rt.failures ≤ 3
  enabled : v.booting = false → (v.enabled = true ↔ v.rt.state ≠ .disabled)
  booting : v.booting = true → v.rt.state = .disabled ∧ v.rt.arrears = 0

theorem sourcesOk_iff (s : State) : SourcesOk s ↔ ∀ i, (s.sourceView i).Ok := by
  constructor
  · intro h i
    exact ⟨h.record i, h.arrears i, h.failures i, fun hb => h.enabled (by simpa [State.sourceView] using hb) i,
      fun hb => h.booting (by simpa [State.sourceView] using hb) i⟩
  · intro h
    exact ⟨fun i => (h i).record, fun i => (h i).arrears, fun i => (h i).failures,
      fun hb i => (h i).enabled (by simpa [State.sourceView] using hb),
      fun hb i => (h i).booting (by simpa [State.sourceView] using hb)⟩

theorem SourcesOk.of_sourceView {s t : State} (h : SourcesOk s) (hv : t.sourceView = s.sourceView) : SourcesOk t := by
  rw [sourcesOk_iff] at *
  rwa [hv]

/-- An event that concerns the source i alone. -/
theorem SourcesOk.of_others {s t : State} (h : SourcesOk s) (i : Src)
    (others : ∀ j, j ≠ i → t.sourceView j = s.sourceView j) (own : (t.sourceView i).Ok) : SourcesOk t := by
  rw [sourcesOk_iff] at *
  intro j
  by_cases hj : j = i
  · rw [hj]; exact own
  · rw [others j hj]; exact h j

/-- A source that is not DISABLED is found outside BOOTING alone. -/
theorem SourcesOk.not_booting {s : State} (h : SourcesOk s) {i : Src} (hi : (s.src i).state ≠ .disabled) :
    s.stage ≠ .booting := fun hb => hi (h.booting hb i).1

/-- A record exists exactly while a source is OPEN (R3, R46). -/
theorem SourcesOk.notice_none {s : State} (h : SourcesOk s) {i : Src} (hi : (s.src i).state ≠ .opened) :
    s.notice i = none := by
  rw [← Option.not_isSome_iff_eq_none, h.record i]
  exact hi

theorem SourcesOk.notice_some {s : State} (h : SourcesOk s) {i : Src} (hi : (s.src i).state = .opened) :
    ∃ n, s.notice i = some n := Option.isSome_iff_exists.mp ((h.record i).mpr hi)

/-! ### The operations that leave what SourcesOk looks at -/

theorem sourceView_of_eq {s t : State} (hst : t.stage = s.stage)
    (hc : t.config.tables.sources = s.config.tables.sources)
    (hn : ∀ j, (t.notice j).isSome = (s.notice j).isSome) (hs : t.sources.rt = s.sources.rt) :
    t.sourceView = s.sourceView := by
  funext j
  simp only [State.sourceView, hst, State.cfg, hc, hn, State.src, hs]

@[simp] theorem setEng_sourceView (s : State) (p : Port) (e : PortEngine) :
    (s.setEng p e).sourceView = s.sourceView := rfl
@[simp] theorem setBus_sourceView (s : State) (b : FieldBus) : (s.setBus b).sourceView = s.sourceView := rfl
@[simp] theorem setPass_sourceView (s : State) (l : List Src) (b : Bool) :
    (s.setPass l b).sourceView = s.sourceView := rfl
@[simp] theorem setQueue_sourceView (s : State) (p : Port) (q : List Src) :
    (s.setQueue p q).sourceView = s.sourceView := rfl
@[simp] theorem setLine_sourceView (s : State) (k : Fin 8) (r : LineRt) :
    (s.setLine k r).sourceView = s.sourceView := rfl
@[simp] theorem setSignalled_sourceView (s : State) (p : Port) (m : DevSet) :
    (s.setSignalled p m).sourceView = s.sourceView := rfl
@[simp] theorem gain_sourceView (s : State) (p : Port) (m : DevSet) : (s.gain p m).sourceView = s.sourceView := rfl
@[simp] theorem occur_sourceView (s : State) (p : Port) (n : Nat) : (s.occur p n).sourceView = s.sourceView := rfl
@[simp] theorem latchRisen_sourceView (old s : State) : (State.latchRisen old s).sourceView = s.sourceView := rfl
@[simp] theorem respond_sourceView (s : State) (p : Port) (r : Response) :
    (s.respond p r).sourceView = s.sourceView := rfl
@[simp] theorem withdraw_sourceView (s : State) (p : Port) (w : Withdrawal) :
    (s.withdraw p w).sourceView = s.sourceView := rfl
@[simp] theorem setPortCfg_sourceView (s : State) (p : Port) (c : PortCfg) :
    (s.setPortCfg p c).sourceView = s.sourceView := rfl
@[simp] theorem setClsCfg_sourceView (s : State) (k : Fin 8) (c : ClassCfg) :
    (s.setClsCfg k c).sourceView = s.sourceView := rfl

@[simp] theorem setSrc_sourceView (s : State) (i : Src) (r : SourceRt) (j : Src) : (s.setSrc i r).sourceView j =
    if i = j then { s.sourceView j with rt := r } else s.sourceView j := by
  unfold State.sourceView
  rw [State.src_setSrc]
  split <;> rfl

@[simp] theorem setNotice_sourceView (s : State) (i : Src) (n : Option Notice) (j : Src) :
    (s.setNotice i n).sourceView j =
      if i = j then { s.sourceView j with recorded := n.isSome } else s.sourceView j := by
  unfold State.sourceView
  rw [State.notice_setNotice]
  split <;> rfl

/-- A record that is written over stays a record. -/
theorem setNotice_some_sourceView {s : State} {i : Src} {n : Notice} (h : s.notice i = some n) (m : Notice) :
    (s.setNotice i (some m)).sourceView = s.sourceView :=
  sourceView_of_eq rfl rfl (fun j => by
    rw [State.notice_setNotice]
    split
    · subst_vars; rw [h]; rfl
    · rfl) rfl

@[simp] theorem modNotice_sourceView (s : State) (i : Src) (f : Notice → Notice) :
    (s.modNotice i f).sourceView = s.sourceView := by
  unfold State.modNotice
  split
  · rfl
  · rename_i n h
    exact setNotice_some_sourceView h (f n)

theorem sourceView_of_offEngines {s t : State} (h : t.offEngines = s.offEngines) : t.sourceView = s.sourceView := by
  obtain ⟨hst, hs, hn, -, -, -, hc⟩ := offEngines_fields h
  exact sourceView_of_eq hst (by rw [hc]) (fun j => by simp only [State.notice, hn]) (by rw [hs])

theorem sourceView_of_offDelivery {s t : State} (h : t.offDelivery = s.offDelivery) : t.sourceView = s.sourceView := by
  obtain ⟨hst, hs, hn, -, -, -, hc⟩ := offDelivery_fields h
  exact sourceView_of_eq hst (by rw [hc]) (fun j => by simp only [State.notice, hn]) (by rw [hs])

theorem WalkStep.sourceView {s t : State} {i : Src} (h : WalkStep s t i) : t.sourceView = s.sourceView := by
  obtain ⟨_, hst, hs, _, _, hc, _⟩ := offNotices_fields h.rest
  exact sourceView_of_eq hst (by rw [hc]) h.isSome (by rw [hs])

@[simp] theorem walk_sourceView (s : State) (i : Src) : (s.walk i).sourceView = s.sourceView :=
  (walk_walkStep s i).sourceView

@[simp] theorem walkIfBare_sourceView (s : State) (i : Src) : (s.walkIfBare i).sourceView = s.sourceView :=
  (walkIfBare_walkStep s i).sourceView

@[simp] theorem triggerPass_sourceView (s : State) : s.triggerPass.sourceView = s.sourceView :=
  sourceView_of_offDelivery (triggerPass_offDelivery s)

@[simp] theorem triggerIf_sourceView (s : State) (c : Bool) : (s.triggerIf c).sourceView = s.sourceView :=
  sourceView_of_offDelivery (triggerIf_offDelivery s c)

@[simp] theorem endPass_sourceView (s : State) : s.endPass.sourceView = s.sourceView :=
  sourceView_of_offDelivery (endPass_offDelivery s)

@[simp] theorem prunePass_sourceView (s : State) (i : Src) : (s.prunePass i).sourceView = s.sourceView :=
  sourceView_of_offDelivery (prunePass_offDelivery s i)

@[simp] theorem removeRefs_sourceView (s : State) (i : Src) : (s.removeRefs i).sourceView = s.sourceView :=
  sourceView_of_offDelivery (removeRefs_offDelivery s i)

@[simp] theorem withdrawAll_sourceView (s : State) (i : Src) (n : Notice) (r : Reason) :
    (s.withdrawAll i n r).sourceView = s.sourceView := sourceView_of_offEngines (withdrawAll_offEngines s i n r)

@[simp] theorem settle_sourceView (s : State) : s.settle.sourceView = s.sourceView := by
  obtain ⟨_, hst, hs, _, hc, _⟩ := offLinks_fields (settle_offLinks s)
  refine sourceView_of_eq hst (by rw [hc]) (fun j => ?_) (by rw [hs])
  cases hn : s.notice j with
  | none => rw [(settle_noticeStays s j).absent hn]
  | some n =>
    obtain ⟨_, _, hm⟩ := (settle_noticeStays s j).record n hn
    rw [hm]; rfl

theorem advanceScan_booting (s : State) : (s.advanceScan.stage = .booting ↔ s.stage = .booting) := by
  unfold State.advanceScan
  split
  · rename_i h
    dsimp only
    split <;> simp [h]
  · exact Iff.rfl

/-- A choice of the arbiter may end the scan; it neither begins nor ends BOOTING (R43, R187). -/
@[simp] theorem arbiter_sourceView (s : State) : s.arbiter.sourceView = s.sourceView := by
  have choose_stage (t : State) : t.choose.stage = t.stage := by
    unfold State.choose
    dsimp only
    repeat' split
    all_goals rfl
  have hst : s.arbiter.stage = .booting ↔ s.stage = .booting := by
    unfold State.arbiter
    split
    · rw [choose_stage]
      exact advanceScan_booting s
    · exact Iff.rfl
  have hoff := arbiter_offBus s
  simp only [State.offBus, Prod.mk.injEq] at hoff
  obtain ⟨-, hs, hn, -, -, -, hc, -⟩ := hoff
  funext j
  simp only [State.sourceView, hst, State.cfg, State.notice, State.src, hs, hn, hc]

@[simp] theorem eraseNotice_sourceView (s : State) (i j : Src) : (s.eraseNotice i).sourceView j =
    if i = j then { s.sourceView j with recorded := false } else s.sourceView j := by
  show ((s.removeRefs i).setNotice i none).sourceView j = _
  rw [setNotice_sourceView, removeRefs_sourceView]
  rfl

theorem endNotice_sourceView (s : State) (i : Src) (r : Option Reason) (j : Src) : (s.endNotice i r).sourceView j =
    if i = j then { s.sourceView j with recorded := false } else s.sourceView j := by
  unfold State.endNotice
  split
  · rename_i h
    split
    · subst_vars
      simp only [State.sourceView, h, Option.isSome_none]
    · rfl
  · simp
  · simp

/-! ### The detach effects -/

theorem foldl_sourceView {α : Type} {op : State → α → State} (h : ∀ t x, (op t x).sourceView = t.sourceView)
    (l : List α) (s : State) : (l.foldl op s).sourceView = s.sourceView := foldl_keeps State.sourceView op h l s

@[simp] theorem dropOffer_sourceView (s : State) (p : Port) (i : Src) : (s.dropOffer p i).sourceView = s.sourceView :=
  modNotice_sourceView s i _

@[simp] theorem revokeClaim_sourceView (s : State) (p : Port) (i : Src) :
    (s.revokeClaim p i).sourceView = s.sourceView := modNotice_sourceView s i _

@[simp] theorem addTried_sourceView (s : State) (p : Port) (i : Src) : (s.addTried p i).sourceView = s.sourceView :=
  modNotice_sourceView s i _

@[simp] theorem revokeAll_sourceView (s : State) (p : Port) : (s.revokeAll p).sourceView = s.sourceView := by
  unfold State.revokeAll
  dsimp only
  rw [foldl_sourceView (by simp), foldl_sourceView (by simp)]

@[simp] theorem emptyQueue_sourceView (s : State) (p : Port) : (s.emptyQueue p).sourceView = s.sourceView :=
  foldl_sourceView (by simp) _ s

@[simp] theorem dropPolls_sourceView (s : State) (p : Port) : (s.dropPolls p).sourceView = s.sourceView := rfl

@[simp] theorem dropRight_sourceView (s : State) (p : Port) : (s.dropRight p).sourceView = s.sourceView := rfl

@[simp] theorem emptyLists_sourceView (s : State) (p : Port) (st : PortState) :
    (s.emptyLists p st).sourceView = s.sourceView := rfl

@[simp] theorem detachEffects_sourceView (s : State) (p : Port) (st : PortState) :
    (s.detachEffects p st).sourceView = s.sourceView := by
  unfold State.detachEffects
  split <;> simp

@[simp] theorem cutLink_sourceView (s : State) (p : Port) : (s.cutLink p).sourceView = s.sourceView := rfl

end Sys2Proof.Machine

/-! SUPPORT. The operations on sources keep `SourcesOk`. -/

namespace Sys2Proof.Machine

/-! ### The operations on sources keep SourcesOk -/

/-- New runtime fields of a source. -/
theorem SourcesOk.setSrc {s : State} (h : SourcesOk s) {i : Src} {r : SourceRt}
    (hr : ({ s.sourceView i with rt := r } : SourceView).Ok) : SourcesOk (s.setSrc i r) := by
  refine h.of_others i (fun j hj => ?_) ?_
  · rw [setSrc_sourceView, if_neg (Ne.symm hj)]
  · rw [setSrc_sourceView, if_pos rfl]
    exact hr

theorem SourcesOk.view {s : State} (h : SourcesOk s) (i : Src) : (s.sourceView i).Ok := (sourcesOk_iff s).mp h i

/-- New runtime fields that keep the source state and the arrears. -/
theorem SourcesOk.setSrc_kept {s : State} (h : SourcesOk s) {i : Src} {r : SourceRt}
    (hst : r.state = (s.src i).state) (ha : r.arrears = (s.src i).arrears) (hf : r.failures ≤ 3) :
    SourcesOk (s.setSrc i r) := by
  obtain ⟨hrec, harr, -, hen, hboot⟩ := h.view i
  exact h.setSrc ⟨hst ▸ hrec, fun hq => ha ▸ harr (hst ▸ hq), hf, hst ▸ hen, hst ▸ ha ▸ hboot⟩

/-- New arrears of a source that is OPEN or CLOSING. -/
theorem SourcesOk.addArrears {s : State} (h : SourcesOk s) {i : Src}
    (hi : (s.src i).state = .opened ∨ (s.src i).state = .closing) (codes : CodeSet) :
    SourcesOk (s.addArrears i codes) := by
  obtain ⟨hrec, -, hfail, hen, -⟩ := h.view i
  have hne : (s.src i).state ≠ .quiet ∧ (s.src i).state ≠ .disabled := by rcases hi with hi | hi <;> simp [hi]
  exact h.setSrc ⟨hrec, fun hq => absurd hq (by simp [hne]), hfail, hen,
    fun hb => absurd (by simpa [State.sourceView] using hb) (h.not_booting hne.2)⟩

/-- What an opening does to what SourcesOk looks at (R13). -/
theorem openNotice_sourceView (s : State) (i : Src) (conds : CodeSet) (j : Src) :
    (s.openNotice i conds).sourceView j =
      if i = j then { s.sourceView j with
        recorded := true, rt := { s.src i with state := .opened, openings := (s.src i).openings + 1 } }
      else s.sourceView j := by
  unfold State.openNotice
  rw [walk_sourceView]
  show ((s.setSrc i _).setNotice i _).sourceView j = _
  rw [setNotice_sourceView, setSrc_sourceView]
  split <;> rfl

/-- An opening of a source outside BOOTING whose entry is enabled, be its record gone or not (R13). -/
theorem openNotice_view_ok {s : State} {i : Src} (conds : CodeSet) (hf : (s.src i).failures ≤ 3)
    (hb : s.stage ≠ .booting) (hen : (s.cfg i).enabled = true) : ((s.openNotice i conds).sourceView i).Ok := by
  rw [openNotice_sourceView, if_pos rfl]
  exact ⟨by simp, fun hq => absurd hq (by simp), hf, fun _ => by simpa [State.sourceView] using hen,
    fun h => absurd (by simpa [State.sourceView] using h) hb⟩

theorem openNotice_sourcesOk {s : State} (h : SourcesOk s) {i : Src} (hi : (s.src i).state ≠ .disabled)
    (conds : CodeSet) : SourcesOk (s.openNotice i conds) := by
  refine h.of_others i (fun j hj => ?_) (openNotice_view_ok conds (h.failures i) (h.not_booting hi)
    ((h.enabled (h.not_booting hi) i).mpr hi))
  rw [openNotice_sourceView, if_neg (Ne.symm hj)]

theorem applyConditions_sourcesOk {s : State} (h : SourcesOk s) (i : Src) (new : CodeSet) :
    SourcesOk (s.applyConditions i new) := by
  unfold State.applyConditions
  split
  · exact h
  · rename_i hq
    split
    · exact h
    · exact openNotice_sourcesOk h (by simp [hq]) new
  · rename_i ho
    split
    · exact h
    · rename_i n hn
      split
      · exact h.of_sourceView (setNotice_some_sourceView hn _)
      · exact h.addArrears (Or.inl ho) _
  · rename_i hc
    exact h.addArrears (Or.inr hc) _

theorem reportArrival_sourcesOk {s : State} (h : SourcesOk s) (i : Src) (report : CodeSet) :
    SourcesOk (s.reportArrival i report) := by
  unfold State.reportArrival
  split
  · exact h
  · exact applyConditions_sourcesOk (h.setSrc_kept (by rfl) (by rfl) (by simp)) i _

theorem failedExchange_sourcesOk {s : State} (h : SourcesOk s) (i : Src) : SourcesOk (s.failedExchange i) := by
  unfold State.failedExchange
  dsimp only
  split
  · exact h
  · split
    · refine applyConditions_sourcesOk ?_ i _
      exact (h.setSrc_kept (by rfl) (by rfl) (by simp)).of_sourceView (latchRisen_sourceView _ _)
    · split
      · exact h.setSrc_kept rfl rfl (by simp only; omega)
      · exact h

theorem outcomeAfterClearAll_sourcesOk {s : State} (h : SourcesOk s) (i : Src) (good : Bool) :
    SourcesOk (s.outcomeAfterClearAll i good) := by
  unfold State.outcomeAfterClearAll
  dsimp only
  split
  · exact h
  · split
    · exact h.setSrc_kept rfl rfl (by simp)
    · split
      · exact h.setSrc_kept rfl rfl (by simp only; omega)
      · exact h

theorem handOutcome_sourcesOk {s : State} (h : SourcesOk s) (t : InFlight) (i : Src) (o : BusOutcome) :
    SourcesOk (s.handOutcome t i o) := by
  unfold State.handOutcome
  cases o with
  | replied r =>
    dsimp only
    split
    · exact outcomeAfterClearAll_sourcesOk h i _
    · exact reportArrival_sourcesOk h i r
  | badCheck =>
    dsimp only
    split
    · exact outcomeAfterClearAll_sourcesOk h i _
    · exact failedExchange_sourcesOk h i
  | noReply =>
    dsimp only
    split
    · exact outcomeAfterClearAll_sourcesOk h i _
    · exact failedExchange_sourcesOk h i

theorem lineQuery_sourcesOk {s : State} (h : SourcesOk s) (k : Fin 8) : SourcesOk (s.lineQuery k) := by
  unfold State.lineQuery
  dsimp only
  split
  · exact h
  · have hl := h.of_sourceView (setLine_sourceView s k { s.line k with
      latch := (s.line k).latch || (s.line k).filtered == .active })
    split
    · exact reportArrival_sourcesOk hl _ _
    · exact hl

/-- The completion of a clear: what stood before of the source's state and record is gone, its record with its notice
(R60). -/
theorem clearCompletion_sourcesOk {s : State} {i : Src} (others : ∀ j, j ≠ i → (s.sourceView j).Ok)
    (hn : s.notice i = none) (hf : (s.src i).failures ≤ 3) (hb : s.stage ≠ .booting)
    (hen : (s.cfg i).enabled = true) (report : CodeSet) : SourcesOk (s.clearCompletion i report) := by
  have hquiet : SourcesOk (s.setSrc i { s.src i with arrears := 0, state := .quiet }) := by
    rw [sourcesOk_iff]
    intro j
    rw [setSrc_sourceView]
    by_cases hj : i = j
    · subst hj
      rw [if_pos rfl]
      exact ⟨by simp [State.sourceView, hn], fun _ => rfl, hf, fun _ => by simpa [State.sourceView] using hen,
        fun h => absurd (by simpa [State.sourceView] using h) hb⟩
    · rw [if_neg hj]
      exact others j (Ne.symm hj)
  unfold State.clearCompletion
  dsimp only
  split
  · exact hquiet
  · exact openNotice_sourcesOk hquiet (by simp) _

/-- The clear of a CLOSING source completes (R60). -/
theorem SourcesOk.clearCompletion {s : State} (h : SourcesOk s) {i : Src} (hi : (s.src i).state = .closing)
    (report : CodeSet) : SourcesOk (s.clearCompletion i report) := by
  have hd : (s.src i).state ≠ .disabled := by simp [hi]
  exact clearCompletion_sourcesOk (fun j _ => h.view j) (h.notice_none (by simp [hi])) (h.failures i) (h.not_booting hd)
    ((h.enabled (h.not_booting hd) i).mpr hd) report

theorem clearFailed_sourcesOk {s : State} (h : SourcesOk s) (e : ClearEntry) : SourcesOk (s.clearFailed e) := by
  have hf := failedExchange_sourcesOk h e.src
  unfold State.clearFailed
  dsimp only
  split
  · exact hf.of_sourceView rfl
  · split
    · rename_i hc
      exact hf.clearCompletion hc 0
    · exact hf

theorem clearEffect_sourcesOk {s : State} (h : SourcesOk s) (e : ClearEntry) (o : BusOutcome) :
    SourcesOk (s.clearEffect e o) := by
  unfold State.clearEffect
  cases o with
  | replied r =>
    dsimp only
    split
    · rename_i hc
      refine (h.setSrc_kept (by rfl) (by rfl) (by simp)).clearCompletion (i := e.src) ?_ r
      simpa using hc
    · exact h
  | badCheck => exact clearFailed_sourcesOk h e
  | noReply => exact clearFailed_sourcesOk h e

theorem setSrc_setSrc (s : State) (i : Src) (a b : SourceRt) : (s.setSrc i a).setSrc i b = s.setSrc i b := by
  simp [State.setSrc]

/-- What a CLOSE leaves of the runtime fields of a source before its clear begins (R58). -/
def SourceRt.closing (r : SourceRt) (conds effective : CodeSet) : SourceRt :=
  { r with
    state := .closing
    arrears := r.arrears ||| CodeSet.minus conds effective |||
      (if CodeSet.has15 effective = true ∧ r.reach = .unreachable then code15Set else 0)
    code15 := if CodeSet.has15 effective = true ∧ r.reach = .reachable then false else r.code15 }

theorem endNotice_src (s : State) (i : Src) (r : Option Reason) (j : Src) : (s.endNotice i r).src j = s.src j := by
  obtain ⟨_, _, hs, _⟩ := offLinks_fields (endNotice_offLinks s i r)
  simp only [State.src, hs]

/-- A CLOSE in one step: the notice ends, the source is CLOSING, and its clear begins (R58, R59). -/
theorem closeNotice_eq (s : State) (i : Src) (n : Notice) (effective : CodeSet) : s.closeNotice i n effective =
    ((s.endNotice i none).setSrc i ((s.src i).closing n.conds effective)).beginClear i effective := by
  unfold State.closeNotice State.addArrears
  dsimp only
  refine congrArg (fun t => State.beginClear t i effective) ?_
  rw [← endNotice_src s i none i]
  generalize s.endNotice i none = t
  unfold SourceRt.closing
  cases h15 : CodeSet.has15 effective <;> cases hr : (t.src i).reach <;> simp [setSrc_setSrc]

/-- The end of a notice by CLOSE leaves its source CLOSING and without a record, or opens it again (R58, R59, R63). -/
theorem closeNotice_sourcesOk {s : State} (h : SourcesOk s) {i : Src} {n : Notice} (hn : s.notice i = some n)
    (m : Notice) (effective : CodeSet) : SourcesOk (s.closeNotice i m effective) := by
  have ho : (s.src i).state = .opened := (h.record i).mp (by rw [hn]; rfl)
  have hb := h.not_booting (i := i) (by simp [ho])
  have hen : (s.cfg i).enabled = true := (h.enabled hb i).mpr (by simp [ho])
  have hview (j : Src) : ((s.endNotice i none).setSrc i ((s.src i).closing m.conds effective)).sourceView j =
      if i = j then { s.sourceView j with recorded := false, rt := (s.src i).closing m.conds effective }
      else s.sourceView j := by
    rw [setSrc_sourceView, endNotice_sourceView]
    split <;> rfl
  have hclosing : SourcesOk ((s.endNotice i none).setSrc i ((s.src i).closing m.conds effective)) := by
    refine h.of_others i (fun j hj => by rw [hview, if_neg (Ne.symm hj)]) ?_
    rw [hview, if_pos rfl]
    refine ⟨by simp [SourceRt.closing], fun hq => by simp [SourceRt.closing] at hq, h.failures i, fun _ => ?_,
      fun hc => ?_⟩
    · simpa [State.sourceView, SourceRt.closing] using hen
    · exact absurd (by simpa [State.sourceView] using hc) hb
  rw [closeNotice_eq]
  generalize hu : (s.endNotice i none).setSrc i ((s.src i).closing m.conds effective) = u at hclosing
  have hstate : (u.src i).state = .closing := by rw [← hu, State.src_setSrc, if_pos rfl]; rfl
  unfold State.beginClear
  split
  · exact hclosing.of_sourceView rfl
  · rename_i k _
    have hlatched := hclosing.of_sourceView (setLine_sourceView u k { u.line k with
      latch := (u.line k).filtered == .active })
    refine (hlatched.setSrc_kept (by rfl) (by rfl) (by simp)).clearCompletion (i := i) ?_ _
    simpa using hstate

/-! ### SOURCE writes keep SourcesOk (R4, R65) -/

theorem disableSource_sourceView (s : State) (i j : Src) : (s.disableSource i).sourceView j =
    if i = j then { s.sourceView j with recorded := false, rt := { s.src i with
      state := .disabled, arrears := 0, code15 := false, failures := 0, reach := .reachable } }
    else s.sourceView j := by
  have key : (s.disableSource i).sourceView j = ((s.endNotice i (some .disabled)).setSrc i { s.src i with
      state := .disabled, arrears := 0, code15 := false, failures := 0, reach := .reachable }).sourceView j := by
    unfold State.disableSource
    dsimp only
    rw [← endNotice_src s i (some .disabled) i]
    split <;> rfl
  rw [key, setSrc_sourceView, endNotice_sourceView]
  split <;> rfl

@[simp] theorem setCfg_sourceView (s : State) (i : Src) (c : SourceCfg) (j : Src) : (s.setCfg i c).sourceView j =
    if i = j then { s.sourceView j with enabled := c.enabled } else s.sourceView j := by
  unfold State.sourceView
  rw [State.cfg_setCfg]
  split <;> rfl

/-- A source is enabled that had no record, with its entry in force already (R4). -/
theorem enableSource_sourcesOk {s : State} {i : Src} (others : ∀ j, j ≠ i → (s.sourceView j).Ok)
    (hn : s.notice i = none) (hb : s.stage ≠ .booting) (hen : (s.cfg i).enabled = true) :
    SourcesOk (s.enableSource i) := by
  have hquiet : SourcesOk (s.setSrc i { s.src i with
      state := .quiet, arrears := 0, code15 := false, failures := 0, reach := .reachable }) := by
    rw [sourcesOk_iff]
    intro j
    rw [setSrc_sourceView]
    by_cases hj : i = j
    · subst hj
      rw [if_pos rfl]
      exact ⟨by simp [State.sourceView, hn], fun _ => rfl, by simp, fun _ => by simpa [State.sourceView] using hen,
        fun h => absurd (by simpa [State.sourceView] using h) hb⟩
    · rw [if_neg hj]
      exact others j (Ne.symm hj)
  unfold State.enableSource
  dsimp only
  split
  · split
    · exact reportArrival_sourcesOk (hquiet.of_sourceView (setLine_sourceView _ _ _)) i _
    · exact hquiet
  · exact hquiet

/-- An accepted SOURCE write outside BOOTING (R176). -/
theorem writeSource_sourcesOk {s : State} (h : SourcesOk s) (hb : s.stage ≠ .booting) (i : Src) (new : SourceCfg) :
    SourcesOk (s.writeSource i new) := by
  have hen := h.enabled hb i
  unfold State.writeSource
  dsimp only
  refine SourcesOk.of_sourceView ?_ (triggerIf_sourceView _ _)
  cases ho : (s.cfg i).enabled <;> cases hnew : new.enabled <;>
    simp only [Bool.not_true, Bool.not_false, Bool.and_self, Bool.and_false, Bool.and_true, Bool.false_eq_true, if_true,
      if_false]
  case false.false =>
    refine h.of_others i (fun j hj => by rw [setCfg_sourceView, if_neg (Ne.symm hj)]) ?_
    rw [setCfg_sourceView, if_pos rfl, hnew, ← ho]
    exact h.view i
  case false.true =>
    have hd : (s.src i).state = .disabled := by simpa [ho] using hen
    refine enableSource_sourcesOk (fun j hj => ?_) (h.notice_none (by simp [hd])) hb (by simpa using hnew)
    rw [setCfg_sourceView, if_neg (Ne.symm hj)]
    exact h.view j
  case true.false =>
    refine h.of_others i (fun j hj => ?_) ?_
    · rw [setCfg_sourceView, if_neg (Ne.symm hj), disableSource_sourceView, if_neg (Ne.symm hj)]
    · rw [setCfg_sourceView, if_pos rfl, disableSource_sourceView, if_pos rfl]
      exact ⟨by simp, fun _ => rfl, by simp, fun _ => by simp [hnew], fun _ => ⟨rfl, rfl⟩⟩
  case true.true =>
    refine h.of_others i (fun j hj => by rw [setCfg_sourceView, if_neg (Ne.symm hj)]) ?_
    rw [setCfg_sourceView, if_pos rfl, hnew, ← ho]
    exact h.view i

/-! ### The boot load and CLEAR_ALL keep SourcesOk (R18, R19, R186) -/

theorem foldl_sourcesOk {α : Type} {op : State → α → State} (hop : ∀ t x, SourcesOk t → SourcesOk (op t x))
    (l : List α) {s : State} (h : SourcesOk s) : SourcesOk (l.foldl op s) := by
  induction l generalizing s with
  | nil => exact h
  | cons x l ih => exact ih (hop s x h)

/-- A baseline scan begins in a state that meets SourcesOk at the stage SCANNING (R186). -/
theorem beginScan_sourcesOk {s : State} (h : SourcesOk { s with stage := .scanning }) : SourcesOk s.beginScan := by
  unfold State.beginScan
  dsimp only
  rw [sourcesOk_iff, arbiter_sourceView, setBus_sourceView, ← sourcesOk_iff]
  exact foldl_sourcesOk (fun t k ht => lineQuery_sourcesOk ht k) _ h

/-- At the end of the boot load each source takes the state of its entry (R18). -/
theorem startSources_sourcesOk {s : State} (h : SourcesOk s) (hb : s.stage = .booting) :
    SourcesOk { s.loadTables.startSources with stage := .scanning } := by
  obtain ⟨hstage, hnot, hsrc⟩ : s.loadTables.stage = s.stage ∧ s.loadTables.notices = s.notices ∧
      s.loadTables.sources = s.sources := by
    unfold State.loadTables
    split <;> exact ⟨rfl, rfl, rfl⟩
  generalize s.loadTables = t at hstage hnot hsrc
  rw [sourcesOk_iff]
  intro i
  have hview : ({ t.startSources with stage := .scanning } : State).sourceView i = ⟨false, (t.cfg i).enabled, false,
      { s.src i with state := if (t.cfg i).enabled then .quiet else .disabled }⟩ := by
    have hrt : ({ t.startSources with stage := .scanning } : State).src i =
        { s.src i with state := if (t.cfg i).enabled then .quiet else .disabled } := by
      show (tabulate _).get i = _
      rw [tabulate_get]
      simp only [State.src, hsrc]
    have hrec : ({ t.startSources with stage := .scanning } : State).notice i = none := by
      have := h.notice_none (i := i) (by simp [h.booting hb i])
      show t.notice i = none
      simpa only [State.notice, hnot] using this
    unfold State.sourceView
    rw [hrt, hrec]
    rfl
  rw [hview]
  have ha : (s.src i).arrears = 0 := (h.booting hb i).2
  cases (t.cfg i).enabled <;> exact ⟨by simp, fun _ => ha, h.failures i, fun _ => by simp, fun hc => by cases hc⟩

theorem endAllNotices_sourceView (s : State) (i : Src) :
    s.endAllNotices.sourceView i = { s.sourceView i with recorded := false } := by
  have hfold (l : List Src) (t : State) :
      (l.foldl (fun t i => t.endNotice i (some .cleared)) t).sourceView i =
        if i ∈ l then { t.sourceView i with recorded := false } else t.sourceView i := by
    induction l generalizing t with
    | nil => rfl
    | cons j l ih =>
      rw [List.foldl_cons, ih, endNotice_sourceView]
      by_cases hij : j = i
      · subst hij; simp
      · simp [hij, Ne.symm hij]
  unfold State.endAllNotices
  dsimp only
  rw [setPass_sourceView, hfold]
  have hspend : (s.spendFree (s.noticesWith (fun _ => true))).sourceView = s.sourceView := rfl
  rw [hspend]
  unfold State.inFreeOrder
  simp only [(sortByKey_perm _ _).mem_iff]
  cases hn : s.notice i with
  | none => simp [State.noticesWith, hn, State.sourceView]
  | some n => simp [State.noticesWith, hn, mem_srcAll]

/-- CLEAR_ALL leaves every enabled source QUIET and without a record (R19, R66). -/
theorem clearSources_sourcesOk {s : State} (h : SourcesOk s) (hb : s.stage ≠ .booting) :
    SourcesOk s.endAllNotices.clearSources := by
  rw [sourcesOk_iff]
  intro i
  have hend := endAllNotices_sourceView s i
  generalize s.endAllNotices = t at hend
  have hview : t.clearSources.sourceView i = { t.sourceView i with rt := (t.src i).cleared } := by
    have hrt : t.clearSources.src i = (t.src i).cleared := by
      show (tabulate _).get i = _
      rw [tabulate_get]
    unfold State.sourceView
    rw [hrt]
    rfl
  have hsrc : t.src i = s.src i := congrArg SourceView.rt hend
  rw [hview, hend, hsrc]
  obtain ⟨-, harr, hfail, hen, -⟩ := h.view i
  have hnb : (s.sourceView i).booting = false := by simpa [State.sourceView] using hb
  have hen := hen hnb
  unfold SourceRt.cleared
  split
  · rename_i hd
    exact ⟨by simp [hd], fun _ => harr (Or.inr hd), hfail, fun _ => hen, fun hc => by simp [hnb] at hc⟩
  · rename_i hd
    exact ⟨by simp, fun _ => rfl, by simp, fun _ => by simpa [State.sourceView, hd] using hen,
      fun hc => by simp [hnb] at hc⟩

theorem cancelPoll_offEngines (s : State) (e : PollEntry) : (s.cancelPoll e).offEngines = s.offEngines :=
  foldl_keeps State.offEngines _ (fun t p => respond_offEngines t p _) _ s

@[simp] theorem cancelBusWork_sourceView (s : State) : s.cancelBusWork.sourceView = s.sourceView := by
  have hcancel (t : State) (e : PollEntry) : (t.cancelPoll e).sourceView = t.sourceView :=
    sourceView_of_offEngines (cancelPoll_offEngines t e)
  have hfold := foldl_sourceView hcancel s.bus.pollQueue s
  unfold State.cancelBusWork
  dsimp only
  split
  · split
    · rw [setBus_sourceView, hcancel, setBus_sourceView, hfold]
    · rw [setBus_sourceView, setBus_sourceView, hfold]
  · rw [setBus_sourceView, hfold]

theorem acceptClearAll_sourcesOk {s : State} (h : SourcesOk s) (hb : s.stage ≠ .booting) (p : Port) (f : Frame) :
    SourcesOk (s.acceptClearAll p f) := by
  refine beginScan_sourcesOk ?_
  have hclear := clearSources_sourcesOk h hb
  rw [sourcesOk_iff] at hclear ⊢
  intro i
  have hview : ({ (s.endAllNotices.clearSources.cancelBusWork).respond p (f.answer .ok []) with
      stage := .scanning } : State).sourceView i =
        { s.endAllNotices.clearSources.sourceView i with booting := false } := by
    rw [← cancelBusWork_sourceView s.endAllNotices.clearSources]
    rfl
  have hbooting : (s.endAllNotices.clearSources.sourceView i).booting = false := by
    have := congrArg SourceView.booting (endAllNotices_sourceView s i)
    exact this.trans (by simpa [State.sourceView] using hb)
  have hi := hclear i
  rw [hview, ← hbooting]
  exact hi

end Sys2Proof.Machine

/-! Every command keeps `SourcesOk` (O55). -/

namespace Sys2Proof.Machine

/-! ### Requests keep SourcesOk -/

/-- A request keeps SourcesOk where its decision does, from a state outside BOOTING. -/
theorem execHead_sourcesOk {s : State} (h : SourcesOk s) {p : Port} {named : Frame → Bool}
    {run : Frame → State → State}
    (hrun : ∀ f t, SourcesOk t → t.stage ≠ .booting → SourcesOk (run f t)) : SourcesOk (s.execHead p named run) := by
  unfold State.execHead
  split
  · rename_i hmay
    have hb : s.stage ≠ .booting := by
      simp only [State.mayExecute, Bool.and_eq_true, bne_iff_ne] at hmay
      exact hmay.1.1
    split
    · exact h
    · split
      · exact (hrun _ _ (h.of_sourceView (setEng_sourceView s p _)) hb).of_sourceView (settle_sourceView _)
      · exact h
  · exact h

theorem execKind_sourcesOk {s : State} (h : SourcesOk s) {p : Port} {k : ReqKind} {named : Frame → Bool}
    {run : Frame → State → State}
    (hrun : ∀ f t, SourcesOk t → t.stage ≠ .booting → SourcesOk (run f t)) : SourcesOk (s.execKind p k named run) := by
  refine execHead_sourcesOk h fun f t ht hb => ?_
  split
  · exact ht.of_sourceView (respond_sourceView _ _ _)
  · exact hrun f t ht hb

/-- A request that leaves what SourcesOk looks at. -/
theorem execKind_sourcesOk_of_view {s : State} (h : SourcesOk s) {p : Port} {k : ReqKind} {named : Frame → Bool}
    {run : Frame → State → State} (hrun : ∀ f t, (run f t).sourceView = t.sourceView) :
    SourcesOk (s.execKind p k named run) :=
  execKind_sourcesOk h fun f t ht _ => ht.of_sourceView (hrun f t)

theorem decideAttach_sourceView (s : State) (p : Port) (f : Frame) :
    (s.decideAttach p f).sourceView = s.sourceView := by
  unfold State.decideAttach
  dsimp only
  split
  · rfl
  · rw [respond_sourceView, triggerPass_sourceView]
    rfl
  · split <;> rfl
  · split <;> rfl

theorem decideDetach_sourceView (s : State) (p : Port) (f : Frame) :
    (s.decideDetach p f).sourceView = s.sourceView := by
  unfold State.decideDetach
  simp

theorem decideHold_sourceView (s : State) (p : Port) (f : Frame) : (s.decideHold p f).sourceView = s.sourceView := by
  unfold State.decideHold
  split <;> rfl

theorem decideResume_sourceView (s : State) (p : Port) (f : Frame) :
    (s.decideResume p f).sourceView = s.sourceView := by
  unfold State.decideResume
  split
  · rw [respond_sourceView, triggerPass_sourceView]
    rfl
  · rfl

theorem named_some {s : State} {f : Frame} {n : Notice} (h : s.named f = some n) :
    s.notice f.src = some n ∧ n.mark = f.mark := by
  unfold State.named at h
  split at h
  · split at h
    · cases h
      exact ⟨by assumption, by assumption⟩
    · cases h
  · cases h

theorem makeClaim_sourceView {s : State} {i : Src} {n : Notice} (h : s.notice i = some n) (p : Port) :
    (s.makeClaim p i n).sourceView = s.sourceView := by
  unfold State.makeClaim
  dsimp only
  rw [removeRefs_sourceView, foldl_sourceView (fun t q => by split <;> simp), setNotice_some_sourceView h]

theorem decideClaim_sourcesOk {s : State} (h : SourcesOk s) (p : Port) (f : Frame) : SourcesOk (s.decideClaim p f) := by
  unfold State.decideClaim
  split
  · exact h.of_sourceView (respond_sourceView _ _ _)
  · rename_i n hn
    obtain ⟨hn, -⟩ := named_some hn
    have hclaim := h.of_sourceView (makeClaim_sourceView hn p)
    split
    · split <;> exact h.of_sourceView (respond_sourceView _ _ _)
    · split
      · unfold State.claimOffered
        dsimp only
        split
        · exact hclaim.of_sourceView (by rw [respond_sourceView, modNotice_sourceView])
        · obtain ⟨m, hm⟩ : ∃ m, (s.makeClaim p f.src n).notice f.src = some m := by
            refine hclaim.notice_some (i := f.src) ?_
            have := congrFun (makeClaim_sourceView hn p) f.src
            rw [show (s.makeClaim p f.src n).src f.src = s.src f.src from congrArg SourceView.rt this]
            exact (h.record f.src).mp (by rw [hn]; rfl)
          exact (closeNotice_sourcesOk hclaim hm n _).of_sourceView (by rw [arbiter_sourceView, respond_sourceView])
      · exact h.of_sourceView (respond_sourceView _ _ _)
    · exact h.of_sourceView (respond_sourceView _ _ _)

theorem decideRelease_sourceView (s : State) (p : Port) (f : Frame) :
    (s.decideRelease p f).sourceView = s.sourceView := by
  unfold State.decideRelease
  split
  · rfl
  · rename_i n hn
    split
    · rw [walk_sourceView, respond_sourceView, setNotice_some_sourceView (named_some hn).1]
    · rfl

theorem decideClose_sourcesOk {s : State} (h : SourcesOk s) (p : Port) (f : Frame) : SourcesOk (s.decideClose p f) := by
  unfold State.decideClose
  split
  · exact h.of_sourceView (respond_sourceView _ _ _)
  · rename_i n hn
    split
    · exact (closeNotice_sourcesOk h (named_some hn).1 n _).of_sourceView
        (by rw [arbiter_sourceView, respond_sourceView])
    · exact h.of_sourceView (respond_sourceView _ _ _)

theorem decidePoll_sourcesOk {s : State} (h : SourcesOk s) (p : Port) (f : Frame) : SourcesOk (s.decidePoll p f) := by
  unfold State.decidePoll
  dsimp only
  split
  · exact (lineQuery_sourcesOk h _).of_sourceView (respond_sourceView _ _ _)
  · split
    · exact h.of_sourceView (respond_sourceView _ _ _)
    · split
      · exact h.of_sourceView (setBus_sourceView _ _)
      · exact h.of_sourceView (by rw [arbiter_sourceView, setBus_sourceView])

theorem decideAck_sourceView (s : State) (p : Port) (f : Frame) : (s.decideAck p f).sourceView = s.sourceView := rfl

theorem decideResumeField_sourceView (s : State) (p : Port) (fatLow : Bool) (f : Frame) :
    (s.decideResumeField p fatLow f).sourceView = s.sourceView := by
  unfold State.decideResumeField
  dsimp only
  split
  · rw [arbiter_sourceView]
    rfl
  · rfl

theorem decideTakeRight_sourceView (s : State) (p : Port) (f : Frame) :
    (s.decideTakeRight p f).sourceView = s.sourceView := by
  unfold State.decideTakeRight
  repeat' split
  all_goals rfl

theorem decideGiveRight_sourceView (s : State) (p : Port) (f : Frame) :
    (s.decideGiveRight p f).sourceView = s.sourceView := by
  unfold State.decideGiveRight
  split <;> rfl

theorem decideStore_sourceView (s : State) (p : Port) (f : Frame) : (s.decideStore p f).sourceView = s.sourceView := by
  unfold State.decideStore
  repeat' split
  all_goals rfl

/-! ### WRITE_ENTRY keeps SourcesOk -/

theorem setBacklog_sourceView (s : State) (q : Port) (limit : Byte) :
    (s.setBacklog q limit).sourceView = s.sourceView := by
  unfold State.setBacklog
  dsimp only
  rw [foldl_sourceView (by simp)]
  rfl

theorem writePort_sourceView (s : State) (p q : Port) (new : PortCfg) :
    (s.writePort p q new).sourceView = s.sourceView := by
  have henable : (if (s.portCfg q).enabled && !new.enabled then s.disablePort q
      else if !(s.portCfg q).enabled && new.enabled then s.enablePort q else s).sourceView = s.sourceView := by
    split
    · exact (cutLink_sourceView _ _).trans (detachEffects_sourceView _ _ _)
    · split <;> rfl
  unfold State.writePort
  dsimp only
  rw [triggerIf_sourceView]
  generalize (if (s.portCfg q).enabled && !new.enabled then s.disablePort q
      else if !(s.portCfg q).enabled && new.enabled then s.enablePort q else s) = t at henable
  have hlimit : (if (s.portCfg q).backlog = new.backlog then t else t.setBacklog q new.backlog).sourceView =
      s.sourceView := by
    split
    · exact henable
    · exact (setBacklog_sourceView t q _).trans henable
  split
  · rw [setPortCfg_sourceView, hlimit]
  · exact (setEng_sourceView _ _ _).trans ((setPortCfg_sourceView _ _ _).trans hlimit)

theorem writeRank_sourceView (s : State) (order : List (Fin 8)) : (s.writeRank order).sourceView = s.sourceView := by
  unfold State.writeRank
  split <;> rfl

theorem applyWrite_sourcesOk {s t : State} (h : SourcesOk s) (hb : s.stage ≠ .booting) {p : Port} {f : Frame}
    (ht : s.applyWrite p f = some t) : SourcesOk t := by
  unfold State.applyWrite at ht
  dsimp only at ht
  split at ht
  · obtain ⟨i, -, ht⟩ := Option.bind_eq_some_iff.mp ht
    obtain ⟨new, -, rfl⟩ := Option.map_eq_some_iff.mp ht
    exact writeSource_sourcesOk h hb i new
  · obtain ⟨new, -, rfl⟩ := Option.map_eq_some_iff.mp ht
    exact h.of_sourceView (setClsCfg_sourceView _ _ _)
  · obtain ⟨new, -, rfl⟩ := Option.map_eq_some_iff.mp ht
    exact h.of_sourceView (writeRank_sourceView s new)
  · obtain ⟨q, -, ht⟩ := Option.bind_eq_some_iff.mp ht
    obtain ⟨new, -, rfl⟩ := Option.map_eq_some_iff.mp ht
    exact h.of_sourceView (writePort_sourceView s p q new)
  · obtain ⟨new, -, rfl⟩ := Option.map_eq_some_iff.mp ht
    exact h.of_sourceView rfl
  · cases ht

theorem decideWrite_sourcesOk {s : State} (h : SourcesOk s) (hb : s.stage ≠ .booting) (p : Port) (f : Frame) :
    SourcesOk (s.decideWrite p f) := by
  unfold State.decideWrite
  dsimp only
  split
  · exact h.of_sourceView (respond_sourceView _ _ _)
  · split
    · exact h.of_sourceView (respond_sourceView _ _ _)
    · split
      · exact h.of_sourceView (respond_sourceView _ _ _)
      · rename_i t ht
        have hw := applyWrite_sourcesOk h hb ht
        unfold State.respondIfOn
        split
        · exact hw
        · exact hw.of_sourceView (respond_sourceView _ _ _)

theorem execWrite_sourcesOk {s : State} (h : SourcesOk s) (p : Port) (row : Frame → Bool) :
    SourcesOk (s.execWrite p row) :=
  execKind_sourcesOk h fun f _ ht hb => decideWrite_sourcesOk ht hb p f

/-! ### The receivers and transmitters, the timers and the store -/

theorem takeChar_sourceView (s : State) (p : Port) (chars : List Byte) (c : LinkChar) :
    (s.takeChar p chars c).sourceView = s.sourceView := by
  unfold State.takeChar State.takeByte State.offerFrame
  dsimp only
  repeat' split
  all_goals rfl

theorem breakPort_sourceView (s : State) (p : Port) : (s.breakPort p).sourceView = s.sourceView := by
  unfold State.breakPort
  simp

theorem frameEnded_sourceView (s : State) (p : Port) (f : TxFrame) : (s.frameEnded p f).sourceView = s.sourceView := by
  unfold State.frameEnded
  dsimp only
  split
  · exact modNotice_sourceView s _ _
  · rfl
  · rfl

theorem bidFailed_sourceView (s : State) : s.bidFailed.sourceView = s.sourceView := rfl

theorem moveCursor_sourceView (s : State) (o : BusOutcome) : (s.moveCursor o).sourceView = s.sourceView := by
  unfold State.moveCursor
  repeat' split
  all_goals rfl

theorem passStep_sourceView (s : State) : s.passStep.sourceView = s.sourceView := by
  unfold State.passStep
  split
  · rfl
  · dsimp only
    split <;> simp

theorem completeStore_sourceView (s : State) (t : Tables) (dest : Option Port) (content : List Byte)
    (check : BitVec 16) : (s.completeStore t dest content check).sourceView = s.sourceView := by
  unfold State.completeStore
  dsimp only
  split <;> rfl

theorem tickTimers_sourceView (s : State) : s.tickTimers.sourceView = s.sourceView :=
  sourceView_of_eq rfl rfl (fun j => by
    show ((tabulate (fun i => (s.notice i).map Notice.tick)).get j).isSome = _
    rw [tabulate_get, Option.isSome_map]) rfl

theorem lineRose_sourcesOk {s : State} (h : SourcesOk s) (i : Src) : SourcesOk (s.lineRose i) := by
  unfold State.lineRose
  split
  · exact h
  · exact reportArrival_sourcesOk (h.of_sourceView (setLine_sourceView _ _ _)) i _

theorem expireOffer_sourceView (s : State) (p : Port) (i : Src) (n : Notice) :
    (s.expireOffer p i n).sourceView = s.sourceView := by
  unfold State.expireOffer
  simp

theorem expireService_sourceView (s : State) (p : Port) (i : Src) (n : Notice) :
    (s.expireService p i n).sourceView = s.sourceView := by
  unfold State.expireService
  simp

theorem fullReset_sourcesOk (s : State) : SourcesOk s.fullReset := by
  have hview (i : Src) : s.fullReset.sourceView i = State.reset.sourceView i := rfl
  have hreset (i : Src) : State.reset.sourceView i = ⟨true, false, false, SourceRt.reset⟩ := by
    simp [State.sourceView, State.reset, State.cfg, State.notice, State.src, defaultTables, defaultSource, Vector.get]
  rw [sourcesOk_iff]
  intro i
  rw [hview, hreset]
  exact ⟨by decide, fun _ => rfl, by decide, fun hc => (by cases hc), fun _ => ⟨rfl, rfl⟩⟩


/-! ### The commands -/

theorem SourcesOk.endTransaction {s : State} (h : SourcesOk s) (t : InFlight) (kind : PrevKind) (ack : AckSlot) :
    SourcesOk (s.endTransaction t kind ack) := h.of_sourceView rfl

/-- The end of a poll (R39). -/
theorem execPollEnd_sourcesOk {s t : State} (h : SourcesOk s) {reply : Option FieldReply}
    (ht : execPollEnd reply s = .next t) : SourcesOk t := by
  cases ht
  split
  · split
    · refine SourcesOk.of_sourceView ?_ ((settle_sourceView _).trans (foldl_sourceView (by simp) _ _))
      exact handOutcome_sourcesOk (h.endTransaction _ _ _) _ _ _
    · exact h
  · exact h

theorem execBidRoundEnd_sourcesOk {s t : State} (h : SourcesOk s) {address : BitVec 6} {report : BitVec 16}
    {check : BitVec 8} (ht : execBidRoundEnd address report check s = .next t) : SourcesOk t := by
  cases ht
  split
  · split
    · refine SourcesOk.of_sourceView ?_ (settle_sourceView _)
      unfold State.bidEffect
      split
      · exact (handOutcome_sourcesOk (h.endTransaction _ _ _) _ _ _).of_sourceView rfl
      · exact (handOutcome_sourcesOk (h.endTransaction _ _ _) _ _ _).of_sourceView rfl
      · exact (h.endTransaction _ _ _).of_sourceView (bidFailed_sourceView _)
      · exact (h.endTransaction _ _ _).of_sourceView (bidFailed_sourceView _)
    · exact h
  · exact h

theorem execClearEnd_sourcesOk {s t : State} (h : SourcesOk s) {reply : Option FieldReply}
    (ht : execClearEnd reply s = .next t) : SourcesOk t := by
  cases ht
  split
  · split
    · refine SourcesOk.of_sourceView ?_ (settle_sourceView _)
      split
      · exact h.of_sourceView rfl
      · split
        · exact handOutcome_sourcesOk (h.endTransaction _ _ _) _ _ _
        · exact clearEffect_sourcesOk (h.endTransaction _ _ _) _ _
    · exact h
  · exact h

theorem execScanStepEnd_sourcesOk {s t : State} (h : SourcesOk s) {reply : Option FieldReply}
    (ht : execScanStepEnd reply s = .next t) : SourcesOk t := by
  cases ht
  split
  · split
    · refine SourcesOk.of_sourceView ?_ ((settle_sourceView _).trans (moveCursor_sourceView _ _))
      exact handOutcome_sourcesOk (h.endTransaction _ _ _) _ _ _
    · exact h
  · exact h

theorem execLineSample_sourcesOk {s t : State} (h : SourcesOk s) {levels : BitVec 8}
    (ht : execLineSample levels s = .next t) : SourcesOk t := by
  cases ht
  refine SourcesOk.of_sourceView ?_ (settle_sourceView _)
  exact foldl_sourcesOk (fun t i ht => lineRose_sourcesOk ht i) _ (h.of_sourceView (tickTimers_sourceView s))

theorem execBootLoadComplete_sourcesOk {s t : State} (h : SourcesOk s) {fatLow : Bool}
    (ht : execBootLoadComplete fatLow s = .next t) : SourcesOk t := by
  cases ht
  split
  · rename_i hb
    refine (beginScan_sourcesOk ?_).of_sourceView (settle_sourceView _)
    exact (startSources_sourcesOk h hb).of_sourceView rfl
  · exact h

/-- Every command keeps SourcesOk. -/
theorem exec_sourcesOk {c : Instr} {s t : State} (h : SourcesOk s) (ht : exec c s = .next t) : SourcesOk t := by
  cases c with
  | fullReset => cases ht; exact fullReset_sourcesOk s
  | bootLoadComplete fatLow => exact execBootLoadComplete_sourcesOk h ht
  | lineSample levels => exact execLineSample_sourcesOk h ht
  | bidRoundEnd address report check => exact execBidRoundEnd_sourcesOk h ht
  | pollEnd reply => exact execPollEnd_sourcesOk h ht
  | clearEnd reply => exact execClearEnd_sourcesOk h ht
  | scanStepEnd reply => exact execScanStepEnd_sourcesOk h ht
  | claim p => cases ht; exact execKind_sourcesOk h fun f t hk _ => decideClaim_sourcesOk hk p f
  | close p => cases ht; exact execKind_sourcesOk h fun f t hk _ => decideClose_sourcesOk hk p f
  | poll p => cases ht; exact execKind_sourcesOk h fun f t hk _ => decidePoll_sourcesOk hk p f
  | clearAll p =>
    cases ht
    refine execKind_sourcesOk h fun f t hk hb => ?_
    split
    · exact acceptClearAll_sourcesOk hk hb p f
    · exact hk.of_sourceView (respond_sourceView _ _ _)
  | sourceDisable p => cases ht; exact execWrite_sourcesOk h p _
  | sourceEnable p => cases ht; exact execWrite_sourcesOk h p _
  | writeSourceEntry p => cases ht; exact execWrite_sourcesOk h p _
  | writeClassEntry p => cases ht; exact execWrite_sourcesOk h p _
  | writeOrder p => cases ht; exact execWrite_sourcesOk h p _
  | portEnable p => cases ht; exact execWrite_sourcesOk h p _
  | portDisable p => cases ht; exact execWrite_sourcesOk h p _
  | backlogLimitRaise p => cases ht; exact execWrite_sourcesOk h p _
  | backlogLimitLower p => cases ht; exact execWrite_sourcesOk h p _
  | linkRateWrite p => cases ht; exact execWrite_sourcesOk h p _
  | writePortEntry p => cases ht; exact execWrite_sourcesOk h p _
  | writeDeviceEntry p => cases ht; exact execWrite_sourcesOk h p _
  | attach p => cases ht; exact execKind_sourcesOk_of_view h fun f t => decideAttach_sourceView t p f
  | detach p => cases ht; exact execKind_sourcesOk_of_view h fun f t => decideDetach_sourceView t p f
  | hold p => cases ht; exact execKind_sourcesOk_of_view h fun f t => decideHold_sourceView t p f
  | resume p => cases ht; exact execKind_sourcesOk_of_view h fun f t => decideResume_sourceView t p f
  | release p => cases ht; exact execKind_sourcesOk_of_view h fun f t => decideRelease_sourceView t p f
  | sweep p => cases ht; exact execKind_sourcesOk_of_view h fun f t => triggerPass_sourceView t
  | readEntry p => cases ht; exact execKind_sourcesOk_of_view h fun f t => rfl
  | takeRight p => cases ht; exact execKind_sourcesOk_of_view h fun f t => decideTakeRight_sourceView t p f
  | giveRight p => cases ht; exact execKind_sourcesOk_of_view h fun f t => decideGiveRight_sourceView t p f
  | store p => cases ht; exact execKind_sourcesOk_of_view h fun f t => decideStore_sourceView t p f
  | status p => cases ht; exact execKind_sourcesOk_of_view h fun f t => rfl
  | ackStatus p => cases ht; exact execKind_sourcesOk_of_view h fun f t => decideAck_sourceView t p f
  | resumeField p fatLow =>
    cases ht; exact execKind_sourcesOk_of_view h fun f t => decideResumeField_sourceView t p fatLow f
  | unknownRequest p =>
    cases ht; exact execHead_sourcesOk h fun f t hk _ => hk.of_sourceView (respond_sourceView _ _ _)
  | offerExpiry p i =>
    cases ht
    refine h.of_sourceView ?_
    split
    · rfl
    · split
      · rw [settle_sourceView, expireOffer_sourceView]
      · rfl
  | serviceExpiry i =>
    cases ht
    refine h.of_sourceView ?_
    repeat' split
    all_goals first
      | rfl
      | rw [settle_sourceView, expireService_sourceView]
  | linkCharacter p x =>
    cases ht
    refine h.of_sourceView ?_
    repeat' split
    all_goals first
      | rfl
      | exact takeChar_sourceView _ _ _ _
  | frameIdleTimeout p =>
    cases ht
    refine h.of_sourceView ?_
    repeat' split
    all_goals rfl
  | huntEnd p => cases ht; refine h.of_sourceView ?_; split <;> rfl
  | lineReturnToMark p =>
    cases ht
    refine h.of_sourceView ?_
    repeat' split
    all_goals rfl
  | linkBreak p =>
    cases ht
    refine h.of_sourceView ?_
    split
    · rw [settle_sourceView, breakPort_sourceView]
    · rfl
  | frameSent p =>
    cases ht
    refine h.of_sourceView ?_
    split
    · rfl
    · rw [settle_sourceView, frameEnded_sourceView]
    · rw [settle_sourceView, setEng_sourceView]
  | fatLow =>
    cases ht
    refine h.of_sourceView ?_
    split
    · rfl
    · rw [settle_sourceView, arbiter_sourceView]; rfl
  | gapEnd fatLow =>
    cases ht
    refine h.of_sourceView ?_
    split
    · rw [settle_sourceView, arbiter_sourceView]; rfl
    · rfl
  | passWalk =>
    cases ht
    refine h.of_sourceView ?_
    split
    · rfl
    · rw [settle_sourceView, passStep_sourceView]
  | storeComplete content check =>
    cases ht
    refine h.of_sourceView ?_
    split
    · rfl
    · rw [settle_sourceView, completeStore_sourceView]

/-- Settles O55: every command keeps `SourcesOk`, for each source by what the command does to its `SourceView`. -/
theorem stepKeepsRecordsWithOpenSources : Obligations.StepKeepsRecordsWithOpenSources := by
  unfold Obligations.StepKeepsRecordsWithOpenSources
  intro s t h ht
  unfold step at ht
  split at ht
  · cases ht
    exact h
  · rename_i c rest _
    have hrest : SourcesOk { s with pending := rest } := h.of_sourceView rfl
    exact exec_sourcesOk hrest ht

end Sys2Proof.Machine

/-! SUPPORT. Openings, reports and failed exchanges, and what an event leaves of a source that they concern. -/

namespace Sys2Proof.Machine

/-! ### An event that concerns one source -/

/-- Between s and t, of all sources and notices only those of i may have changed, and of all references only those of i;
the stage, the configuration and the transmissions stand, and no latched code is lost. -/
structure SourceStep (s t : State) (i : Src) : Prop where
  stage : t.stage = s.stage
  config : t.config = s.config
  tx : ∀ p, (t.eng p).tx = (s.eng p).tx
  portState : ∀ p, (t.eng p).state = (s.eng p).state
  notices : ∀ j, j ≠ i → t.notice j = s.notice j
  sources : ∀ j, j ≠ i → t.src j = s.src j
  order : s.notices.nextOrder ≤ t.notices.nextOrder
  queue : ∀ p, ((t.queue p).filter (fun j => j != i)).Perm ((s.queue p).filter (fun j => j != i))
  stranded : ∀ j, j ≠ i → (j ∈ t.stranded ↔ j ∈ s.stranded)
  latched : LatchedKept s t

theorem SourceStep.trans {s t u : State} {i : Src} (h : SourceStep s t i) (k : SourceStep t u i) :
    SourceStep s u i where
  stage := k.stage.trans h.stage
  config := k.config.trans h.config
  tx p := (k.tx p).trans (h.tx p)
  portState p := (k.portState p).trans (h.portState p)
  notices j hj := (k.notices j hj).trans (h.notices j hj)
  sources j hj := (k.sources j hj).trans (h.sources j hj)
  order := h.order.trans k.order
  queue p := (k.queue p).trans (h.queue p)
  stranded j hj := (k.stranded j hj).trans (h.stranded j hj)
  latched := h.latched.trans k.latched

/-- An event that leaves sources, notices, queues, latched codes and transmissions as they are, whatever it does to the
bus, the response lists and the pass. -/
theorem SourceStep.of_eq {s t : State} (hst : t.stage = s.stage) (hc : t.config = s.config)
    (he : ∀ p, (t.eng p).tx = (s.eng p).tx ∧ (t.eng p).state = (s.eng p).state) (hs : t.sources = s.sources)
    (hn : t.notices = s.notices) (hq : ∀ p, t.queue p = s.queue p) (ha : t.attention = s.attention) (i : Src) :
    SourceStep s t i where
  stage := hst
  config := hc
  tx p := (he p).1
  portState p := (he p).2
  notices j _ := by simp only [State.notice, hn]
  sources j _ := by simp only [State.src, hs]
  order := by rw [hn]
  queue p := by rw [hq p]
  stranded j _ := by simp only [State.stranded, hn]
  latched := .of_attention ha

theorem SourceStep.refl (s : State) (i : Src) : SourceStep s s i :=
  .of_eq rfl rfl (fun _ => ⟨rfl, rfl⟩) rfl rfl (fun _ => rfl) rfl i

theorem WalkStep.sourceStep {s t : State} {i : Src} (h : WalkStep s t i) : SourceStep s t i := by
  obtain ⟨_, hst, hs, _, he, hc, _⟩ := offNotices_fields h.rest
  exact ⟨hst, hc, fun p => by simp only [State.eng, he], fun p => by simp only [State.eng, he], h.others,
    fun j _ => by simp only [State.src, hs], h.order.ge, h.queue.others, h.stranded, h.latched⟩

theorem setSrc_sourceStep (s : State) (i : Src) (r : SourceRt) : SourceStep s (s.setSrc i r) i where
  stage := rfl
  config := rfl
  tx _ := rfl
  portState _ := rfl
  notices _ _ := rfl
  sources j hj := by rw [State.src_setSrc, if_neg (Ne.symm hj)]
  order := le_rfl
  queue _ := List.Perm.refl _
  stranded _ _ := Iff.rfl
  latched := .of_attention rfl

theorem setNotice_sourceStep (s : State) (i : Src) (n : Option Notice) : SourceStep s (s.setNotice i n) i where
  stage := rfl
  config := rfl
  tx _ := rfl
  portState _ := rfl
  notices j hj := by rw [State.notice_setNotice, if_neg (Ne.symm hj)]
  sources _ _ := rfl
  order := le_rfl
  queue _ := List.Perm.refl _
  stranded _ _ := Iff.rfl
  latched := .of_attention rfl

theorem latchRisen_sourceStep (old s : State) (i : Src) : SourceStep s (State.latchRisen old s) i :=
  (latchRisen_walkStep old s i).sourceStep

/-- References of other notices stay where they are. -/
theorem SourceStep.mem_queue {s t : State} {i j : Src} (h : SourceStep s t i) (hj : j ≠ i) (p : Port) :
    j ∈ t.queue p ↔ j ∈ s.queue p := by
  have := (h.queue p).mem_iff (a := j)
  simpa [hj] using this

/-- The offers of no port grow fewer where the notice of i keeps its own. -/
theorem SourceStep.offerCount_le {s t : State} {i : Src} (h : SourceStep s t i)
    (own : ∀ n p, s.notice i = some n → n.offers.has p = true → ∃ m, t.notice i = some m ∧ m.offers.has p = true)
    (p : Port) : s.offerCount p ≤ t.offerCount p :=
  offerCount_mono fun j n hn ho => by
    by_cases hj : j = i
    · subst hj
      exact own n p hn ho
    · exact ⟨n, by rw [h.notices j hj, hn], ho⟩

/-- An event that concerns one source and began with every transmitter at rest touches nothing else at its end. -/
theorem SourceStep.touchesOnly {s u : State} {i : Src} (h : SourceStep s u i) (hs : Settled s)
    (ho : ∀ p, s.offerCount p ≤ u.offerCount p) : TouchesOnly s u.settle i := by
  obtain ⟨_, hst, hsrc, _, hc, _⟩ := offLinks_fields (settle_offLinks u)
  refine ⟨fun j hj => ?_, fun j hj => ?_, hc.trans h.config, hst.trans h.stage,
    h.latched.trans (settle_latchedKept u)⟩
  · rw [settle_notice_of_notTaken, h.notices j hj]
    intro p ht
    have hempty := headTaken_of_settled hs h.stage (h.tx p) (h.portState p) (ho p) ht
    obtain ⟨rest, hq⟩ := (headTaken_some ht).2.2.1
    have hmem : j ∈ u.queue p := by rw [hq]; exact List.mem_cons_self
    rw [h.mem_queue hj, hempty] at hmem
    cases hmem
  · simp only [State.src, hsrc]
    exact h.sources j hj

/-- Where such an event has given no port a reference, the notices and the queues stand at its end. -/
theorem SourceStep.settle_stands {s u : State} {i : Src} (h : SourceStep s u i) (hs : Settled s)
    (ho : ∀ p, s.offerCount p ≤ u.offerCount p) (hq : ∀ p, u.queue p = s.queue p) :
    u.settle.notices = u.notices ∧ u.settle.delivery = u.delivery := by
  refine settle_of_noneTaken fun p => ?_
  by_contra hne
  obtain ⟨j, ht⟩ := Option.ne_none_iff_exists'.mp hne
  have hempty := headTaken_of_settled hs h.stage (h.tx p) (h.portState p) (ho p) ht
  obtain ⟨rest, hu⟩ := (headTaken_some ht).2.2.1
  rw [hq, hempty] at hu
  cases hu

/-- An event that concerns another source leaves the notice of i in its places. -/
theorem SourceStep.noticeStays {s t : State} {i j : Src} (h : SourceStep s t j) (hij : i ≠ j) : NoticeStays s t i where
  record n hn := ⟨n.offers, n.shown, by rw [h.notices i hij, hn]⟩
  absent hn := by rw [h.notices i hij, hn]
  placed p := by
    rw [Bool.eq_iff_iff]
    simp [State.placedAt, h.notices i hij, h.mem_queue hij]
  stranded hi := (h.stranded i hij).mpr hi
  order := h.order
  source := h.sources i hij

/-! ### Openings (R13) -/

/-- The record that an opening makes (R13, R46). -/
def State.newNotice (s : State) (i : Src) (conds : CodeSet) : Notice :=
  { mark := (s.src i).openings + 1, cls := (s.cfg i).cls, mode := (s.cfg i).mode, conds := conds, state := .waiting,
    offers := PortSet.empty, tried := PortSet.empty, shown := false, takeover := false,
    order := s.notices.nextOrder, offerTimers := PerPort.all none, serviceTimer := none }

/-- An opening before its walk. -/
def State.recordOpening (s : State) (i : Src) (conds : CodeSet) : State :=
  let t := (s.setSrc i { s.src i with state := .opened, openings := (s.src i).openings + 1 }).setNotice i
    (some (s.newNotice i conds))
  { t with notices := { t.notices with nextOrder := t.notices.nextOrder + 1 } }

theorem openNotice_eq (s : State) (i : Src) (conds : CodeSet) :
    s.openNotice i conds = (s.recordOpening i conds).walk i := rfl

theorem recordOpening_notice (s : State) (i : Src) (conds : CodeSet) :
    (s.recordOpening i conds).notice i = some (s.newNotice i conds) := by
  show ((s.setSrc i _).setNotice i (some (s.newNotice i conds))).notice i = _
  rw [State.notice_setNotice, if_pos rfl]

theorem recordOpening_src (s : State) (i : Src) (conds : CodeSet) : (s.recordOpening i conds).src i =
    { s.src i with state := .opened, openings := (s.src i).openings + 1 } := by
  show (s.setSrc i _).src i = _
  rw [State.src_setSrc, if_pos rfl]

theorem recordOpening_sourceStep (s : State) (i : Src) (conds : CodeSet) :
    SourceStep s (s.recordOpening i conds) i := by
  have h := (setSrc_sourceStep s i { s.src i with state := .opened, openings := (s.src i).openings + 1 }).trans
    (setNotice_sourceStep _ i (some (s.newNotice i conds)))
  exact { h with order := Nat.le_succ _ }

theorem openNotice_sourceStep (s : State) (i : Src) (conds : CodeSet) : SourceStep s (s.openNotice i conds) i :=
  (recordOpening_sourceStep s i conds).trans (walk_walkStep _ i).sourceStep

theorem openNotice_src (s : State) (i : Src) (conds : CodeSet) : (s.openNotice i conds).src i =
    { s.src i with state := .opened, openings := (s.src i).openings + 1 } := by
  obtain ⟨_, _, hs, _⟩ := offNotices_fields (walk_offNotices (s.recordOpening i conds) i)
  rw [openNotice_eq, ← recordOpening_src s i conds]
  simp only [State.src, hs]

/-- The ports that take a notice look at the port entries and the port states alone. -/
theorem takes_congr {s t : State} (hc : t.config = s.config) (he : ∀ p, (t.eng p).state = (s.eng p).state) :
    t.takes = s.takes := by
  funext cls tried len p
  unfold State.takes
  rw [he p]
  simp only [State.portCfg, hc]
  rfl

/-- What a walk has left of a notice stays so while the notice stays in its places. -/
theorem Walked.of_stays {s s' t t' : State} {i : Src} {tried : PortSet} {len : Port → Nat} {m : Notice} {o : PortSet}
    {sh : Bool} (h : Walked s' t i tried len m) (hc : s'.config = s.config)
    (he : ∀ p, (s'.eng p).state = (s.eng p).state) (hm : t.notice i = some m)
    (hm' : t'.notice i = some { m with offers := o, shown := sh }) (hst : i ∈ t.stranded → i ∈ t'.stranded)
    (hp : ∀ p, t'.placedAt i p = t.placedAt i p) :
    Walked s t' i tried len { m with offers := o, shown := sh } := by
  have hplaced (p : Port) : (i ∈ t'.queue p ∨ o.has p = true) ↔ (i ∈ t.queue p ∨ m.offers.has p = true) := by
    rw [← placedAt_iff hm, ← hp p, placedAt_iff hm']
  unfold Walked at h ⊢
  rw [takes_congr hc he, show s'.cfg = s.cfg from funext fun j => by simp only [State.cfg, hc]] at h
  obtain ⟨hnone, hsome⟩ := h
  refine ⟨fun hno => ?_, fun hex => ?_⟩
  · obtain ⟨h1, h2, h3, h4⟩ := hnone hno
    refine ⟨h1, h2, hst h3, fun p => ?_⟩
    have : ¬ (i ∈ t'.queue p ∨ o.has p = true) := by
      rw [hplaced]
      simp [h4 p]
    simpa using this
  · obtain ⟨h1, h2, h3, h4⟩ := hsome hex
    exact ⟨h1, h2, fun hmode p => (hplaced p).trans (h3 hmode p), fun hmode p => (hplaced p).trans (h4 hmode p)⟩

/-- An opening in v, as it is seen from s before and from t after: the source is OPEN, its new record is as R13 says,
and it has been walked with an empty tried set. -/
theorem openNotice_leaves {s v t : State} {i : Src} {conds : CodeSet} (hc : v.config = s.config)
    (he : ∀ p, (v.eng p).state = (s.eng p).state) (hopen : (v.src i).openings = (s.src i).openings)
    (hord : s.notices.nextOrder ≤ v.notices.nextOrder) (stays : NoticeStays (v.openNotice i conds) t i) :
    (t.src i).state = .opened ∧ (t.src i).openings = (s.src i).openings + 1 ∧
      ∃ n, t.notice i = some n ∧ n.mark = (s.src i).openings + 1 ∧ n.conds = conds ∧ n.cls = (s.cfg i).cls ∧
        n.mode = (s.cfg i).mode ∧ s.notices.nextOrder ≤ n.order ∧ n.order < t.notices.nextOrder ∧ n.takeover = false ∧
        ((n.state = .waiting ∧ t.hasPlace i = true) ∨ (n.state = .stranded ∧ i ∈ t.stranded)) ∧
        ((∀ p, i ∉ v.queue p) → (∀ p, ((s.queue p).filter (fun j => j != i)).length ≤ (v.queue p).length ∧
          (v.queue p).length ≤ ((s.queue p).filter (fun j => j != i)).length + newcomers s t i p) →
          WalkedAmong s t i PortSet.empty n) := by
  have hrec := recordOpening_notice v i conds
  have hcfg : v.cfg i = s.cfg i := by simp only [State.cfg, hc]
  obtain ⟨st, tr, hm⟩ := (walk_walkStep (v.recordOpening i conds) i).record _ hrec
  obtain ⟨o, sh, ht⟩ := stays.record _ hm
  have hends : (st = .waiting ∧ t.hasPlace i = true) ∨ (st = .stranded ∧ i ∈ t.stranded) := by
    obtain ⟨m, hm', h⟩ := walk_ends hrec rfl
    obtain rfl : _ = m := Option.some.inj (hm.symm.trans hm')
    refine h.imp (fun h => ⟨h.1, ?_⟩) (fun h => ⟨h.1, stays.stranded h.2⟩)
    rw [hasPlace_iff_placedAt] at h ⊢
    obtain ⟨p, hp⟩ := h.2
    exact ⟨p, (stays.placed p).trans hp⟩
  have horder : v.notices.nextOrder < t.notices.nextOrder := by
    have h : (v.openNotice i conds).notices.nextOrder = v.notices.nextOrder + 1 :=
      (walk_walkStep (v.recordOpening i conds) i).order
    have := stays.order
    omega
  refine ⟨by rw [stays.source, openNotice_src], by rw [stays.source, openNotice_src, hopen], _, ht,
    congrArg (· + 1) hopen, rfl, congrArg SourceCfg.cls hcfg, congrArg SourceCfg.mode hcfg, hord, horder, rfl, hends,
    fun hbare hlen => ⟨fun p => (v.queue p).length, ?_, hlen⟩⟩
  have hplace : (v.recordOpening i conds).hasPlace i = false := by
    rw [← Bool.not_eq_true, hasPlace_iff_placedAt]
    rintro ⟨p, hp⟩
    rw [placedAt_iff hrec] at hp
    rcases hp with hp | hp
    · exact hbare p hp
    · rw [State.newNotice, PortSet.has_empty] at hp
      cases hp
  obtain ⟨m, hm', -, hw⟩ := walk_walked hrec rfl hplace
  obtain rfl : _ = m := Option.some.inj (hm.symm.trans hm')
  exact hw.of_stays hc he hm ht stays.stranded stays.placed

theorem filter_ne_of_not_mem {l : List Src} {i : Src} (h : i ∉ l) : l.filter (fun j => j != i) = l :=
  List.filter_eq_self.mpr fun j hj => by
    rw [bne_iff_ne]
    rintro rfl
    exact h hj

/-- References designate living notices (R75). -/
theorem Settled.not_mem_queue {s : State} (h : Settled s) {i : Src} (hn : s.notice i = none) (p : Port) :
    i ∉ s.queue p := fun hi => by
  have := h.live p i hi
  rw [hn] at this
  cases this

/-- A notice opens in v for a source that has had none in s (R13). -/
theorem opened_of_openNotice {s v t : State} {i : Src} {conds : CodeSet} (hn : s.notice i = none)
    (hc : v.config = s.config) (he : ∀ p, (v.eng p).state = (s.eng p).state)
    (hopen : (v.src i).openings = (s.src i).openings) (hord : s.notices.nextOrder ≤ v.notices.nextOrder)
    (hq : ∀ p, v.queue p = s.queue p) (stays : NoticeStays (v.openNotice i conds) t i) : Opened s t i conds := by
  obtain ⟨h1, h2, n, h3, h4, h5, h6, h7, h8, h9, h10, h11, hwalk⟩ := openNotice_leaves hc he hopen hord stays
  refine ⟨h1, h2, n, h3, h4, h5, h6, h7, h8, h9, h10, h11, fun hs => ?_⟩
  have hbare := hs.not_mem_queue hn
  exact hwalk (fun p => hq p ▸ hbare p) fun p => by rw [filter_ne_of_not_mem (hbare p), hq]; omega


/-! ### Reports and failed exchanges (R10 to R17) -/

theorem applyConditions_quiet {s : State} {i : Src} {new : CodeSet} (h : (s.src i).state = .quiet) :
    s.applyConditions i new = if new = 0 then s else s.openNotice i new := by
  unfold State.applyConditions
  rw [h]

theorem applyConditions_merge {s : State} {i : Src} {n : Notice} {new : CodeSet} (h : (s.src i).state = .opened)
    (hn : s.notice i = some n) (hm : n.merges) :
    s.applyConditions i new = s.setNotice i (some { n with conds := n.conds ||| new }) := by
  unfold State.applyConditions
  rw [h]
  simp only [hn, (mergeable_iff n).mpr hm, if_true]

theorem applyConditions_wait {s : State} {i : Src} {n : Notice} {new : CodeSet} (h : (s.src i).state = .opened)
    (hn : s.notice i = some n) (hm : ¬ n.merges) :
    s.applyConditions i new = s.addArrears i (CodeSet.minus new n.conds) := by
  unfold State.applyConditions
  rw [h]
  simp only [hn, mt (mergeable_iff n).mp hm, Bool.false_eq_true, if_false]

theorem applyConditions_closing {s : State} {i : Src} {new : CodeSet} (h : (s.src i).state = .closing) :
    s.applyConditions i new = s.addArrears i new := by
  unfold State.applyConditions
  rw [h]

theorem applyConditions_sourceStep (s : State) (i : Src) (new : CodeSet) :
    SourceStep s (s.applyConditions i new) i := by
  unfold State.applyConditions
  split
  · exact .refl s i
  · split
    · exact .refl s i
    · exact openNotice_sourceStep s i new
  · split
    · exact .refl s i
    · split
      · exact setNotice_sourceStep s i _
      · exact setSrc_sourceStep s i _
  · exact setSrc_sourceStep s i _

/-- What the conditions of a report leave of the runtime fields: all but the source state, the arrears and the opening
count. -/
theorem applyConditions_src (s : State) (i : Src) (new : CodeSet) :
    ((s.applyConditions i new).src i).reported = (s.src i).reported ∧
      ((s.applyConditions i new).src i).reach = (s.src i).reach ∧
      ((s.applyConditions i new).src i).failures = (s.src i).failures ∧
      ((s.applyConditions i new).src i).code15 = (s.src i).code15 := by
  have harr (codes : CodeSet) : (s.addArrears i codes).src i = { s.src i with
      arrears := (s.src i).arrears ||| codes } := by
    unfold State.addArrears
    rw [State.src_setSrc, if_pos rfl]
  unfold State.applyConditions
  split
  · exact ⟨rfl, rfl, rfl, rfl⟩
  · split
    · exact ⟨rfl, rfl, rfl, rfl⟩
    · rw [openNotice_src]
      exact ⟨rfl, rfl, rfl, rfl⟩
  · split
    · exact ⟨rfl, rfl, rfl, rfl⟩
    · split
      · exact ⟨rfl, rfl, rfl, rfl⟩
      · rw [harr]
        exact ⟨rfl, rfl, rfl, rfl⟩
  · rw [harr]
    exact ⟨rfl, rfl, rfl, rfl⟩

/-- New conditions change nothing of a record but its conditions (R12). -/
theorem applyConditions_record {s : State} {i : Src} (h : (s.src i).state = .quiet → s.notice i = none)
    (new : CodeSet) {n : Notice} (hn : s.notice i = some n) :
    ∃ conds, (s.applyConditions i new).notice i = some { n with conds := conds } := by
  unfold State.applyConditions
  split
  · exact ⟨_, hn⟩
  · rename_i hq
    rw [h hq] at hn
    cases hn
  · rw [hn]
    dsimp only
    split
    · exact ⟨n.conds ||| new, by rw [State.notice_setNotice, if_pos rfl]⟩
    · exact ⟨_, hn⟩
  · exact ⟨_, hn⟩

theorem noteReport_sourceStep (s : State) (i : Src) (report : CodeSet) : SourceStep s (s.noteReport i report) i :=
  setSrc_sourceStep s i _

theorem reportArrival_sourceStep (s : State) (i : Src) (report : CodeSet) :
    SourceStep s (s.reportArrival i report) i := by
  unfold State.reportArrival
  split
  · exact .refl s i
  · exact (noteReport_sourceStep s i report).trans (applyConditions_sourceStep _ i _)

/-- A failed exchange by the run of failures before it (R16, R17). -/
theorem failedExchange_kept {s : State} {i : Src} (h : (s.src i).state = .disabled ∨ 3 ≤ (s.src i).failures) :
    s.failedExchange i = s := by
  unfold State.failedExchange
  dsimp only
  rcases h with h | h
  · rw [if_pos h]
  · rw [if_neg (show ¬ (s.src i).failures = 2 by omega), if_neg (show ¬ (s.src i).failures < 3 by omega), ite_self]

theorem failedExchange_counted {s : State} {i : Src} (hd : (s.src i).state ≠ .disabled)
    (h : (s.src i).failures < 2) :
    s.failedExchange i = s.setSrc i { s.src i with failures := (s.src i).failures + 1 } := by
  unfold State.failedExchange
  dsimp only
  rw [if_neg hd, if_neg (show ¬ (s.src i).failures = 2 by omega), if_pos (show (s.src i).failures < 3 by omega)]

/-- The third failure before its conditions are applied: the source is UNREACHABLE and holds code 15 (R17). -/
def State.losesSource (s : State) (i : Src) : State :=
  State.latchRisen s (s.setSrc i { s.src i with failures := 3, reach := .unreachable, code15 := true })

theorem failedExchange_third {s : State} {i : Src} (hd : (s.src i).state ≠ .disabled)
    (h : (s.src i).failures = 2) : s.failedExchange i = (s.losesSource i).applyConditions i code15Set := by
  unfold State.failedExchange
  dsimp only
  rw [if_neg hd, if_pos h]
  rfl

theorem losesSource_src (s : State) (i : Src) :
    (s.losesSource i).src i = { s.src i with failures := 3, reach := .unreachable, code15 := true } := by
  show (s.setSrc i _).src i = _
  rw [State.src_setSrc, if_pos rfl]

theorem losesSource_sourceStep (s : State) (i : Src) : SourceStep s (s.losesSource i) i :=
  (setSrc_sourceStep s i _).trans (latchRisen_sourceStep s _ i)

theorem present_unreachable (s : State) (p : Port) : (s.present p).getLsbD 2 = s.anyUnreachable := by
  unfold State.present
  generalize (!s.stranded.isEmpty) = a, s.backlogged p = b, s.anyUnreachable = c, s.bus.suspended = d,
    s.config.storeBlank = e, s.config.storeFault = f
  revert a b c d e f
  decide

/-- The first enabled source to be UNREACHABLE latches UNREACHABLE at every port (R17, R163, R165). -/
theorem losesSource_latched {s : State} {i : Src} (hen : (s.cfg i).enabled = true) (hno : s.anyUnreachable = false)
    (p : Port) : ((s.losesSource i).latched p).getLsbD 2 = true := by
  have hnow : (s.setSrc i { s.src i with failures := 3, reach := .unreachable, code15 := true }).anyUnreachable =
      true := by
    unfold State.anyUnreachable
    rw [List.any_eq_true]
    exact ⟨i, mem_srcAll i, by simp [hen]⟩
  unfold State.losesSource
  rw [latchRisen_latched, BitVec.getLsbD_or, risen, BitVec.getLsbD_and, BitVec.getLsbD_not, present_unreachable,
    present_unreachable, hnow, hno]
  simp

end Sys2Proof.Machine

/-! A failed exchange in whatever event it comes, and POLL_END without a good reply (O11). -/

namespace Sys2Proof.Machine

/-! ### A failed exchange, in whatever event it comes -/

/-- s and t differ at most in the bus, the lists of the port engines and the model's own counters. -/
structure Alike (s t : State) : Prop where
  stage : t.stage = s.stage
  config : t.config = s.config
  sources : t.sources = s.sources
  notices : t.notices = s.notices
  delivery : t.delivery = s.delivery
  attention : t.attention = s.attention
  ports : ∀ p, (t.eng p).tx = (s.eng p).tx ∧ (t.eng p).state = (s.eng p).state

theorem Alike.refl (s : State) : Alike s s := ⟨rfl, rfl, rfl, rfl, rfl, rfl, fun _ => ⟨rfl, rfl⟩⟩

theorem Alike.trans {s t u : State} (h : Alike s t) (k : Alike t u) : Alike s u :=
  ⟨k.stage.trans h.stage, k.config.trans h.config, k.sources.trans h.sources, k.notices.trans h.notices,
    k.delivery.trans h.delivery, k.attention.trans h.attention,
    fun p => ⟨(k.ports p).1.trans (h.ports p).1, (k.ports p).2.trans (h.ports p).2⟩⟩

theorem respond_alike (s : State) (p : Port) (r : Response) : Alike s (s.respond p r) where
  stage := rfl
  config := rfl
  sources := rfl
  notices := rfl
  delivery := rfl
  attention := rfl
  ports q := by
    rw [respond_eng]
    split
    · subst_vars; exact ⟨rfl, rfl⟩
    · exact ⟨rfl, rfl⟩

theorem setBus_alike (s : State) (b : FieldBus) : Alike s (s.setBus b) :=
  ⟨rfl, rfl, rfl, rfl, rfl, rfl, fun _ => ⟨rfl, rfl⟩⟩

theorem foldl_respond_alike (l : List Port) (r : Response) (s : State) :
    Alike s (l.foldl (fun u p => u.respond p r) s) := by
  induction l generalizing s with
  | nil => exact .refl s
  | cons p l ih => exact (respond_alike s p r).trans (ih _)

theorem Alike.sourceStep {s t : State} (h : Alike s t) (i : Src) : SourceStep s t i :=
  .of_eq h.stage h.config h.ports h.sources h.notices (fun p => by simp only [State.queue, h.delivery]) h.attention i

theorem Alike.src {s t : State} (h : Alike s t) (i : Src) : t.src i = s.src i := by simp only [State.src, h.sources]

theorem Alike.notice {s t : State} (h : Alike s t) (i : Src) : t.notice i = s.notice i := by
  simp only [State.notice, h.notices]

theorem Alike.cfg {s t : State} (h : Alike s t) (i : Src) : t.cfg i = s.cfg i := by simp only [State.cfg, h.config]

theorem Alike.queue {s t : State} (h : Alike s t) (p : Port) : t.queue p = s.queue p := by
  simp only [State.queue, h.delivery]

theorem Alike.noticeStays {s t : State} (h : Alike s t) (i : Src) : NoticeStays s t i :=
  .of_eq h.sources h.notices h.queue i

theorem failedExchange_sourceStep (s : State) (i : Src) : SourceStep s (s.failedExchange i) i := by
  unfold State.failedExchange
  dsimp only
  split
  · exact .refl s i
  · split
    · exact (losesSource_sourceStep s i).trans (applyConditions_sourceStep _ i _)
    · split
      · exact setSrc_sourceStep s i _
      · exact .refl s i

theorem failedExchange_record {s : State} {i : Src} (h : (s.src i).state = .quiet → s.notice i = none) {n : Notice}
    (hn : s.notice i = some n) : ∃ conds, (s.failedExchange i).notice i = some { n with conds := conds } := by
  unfold State.failedExchange
  dsimp only
  split
  · exact ⟨_, hn⟩
  · split
    · refine applyConditions_record (s := s.losesSource i) (fun hq => ?_) code15Set hn
      rw [losesSource_src] at hq
      exact h hq
    · split <;> exact ⟨_, hn⟩

/-- A failed exchange with source i in an event that began with every transmitter at rest: v is the state in which the
outcome is handed to the source unit, and u what the rest of the event makes of it (R16, R17). -/
theorem failedExchange_settled {s v u : State} {i : Src} (hs : Settled s) (ho : SourcesOk s) (hv : Alike s v)
    (hu : Alike (v.failedExchange i) u) : FailedExchange s u.settle i := by
  have hstep : SourceStep s u i :=
    ((hv.sourceStep i).trans (failedExchange_sourceStep v i)).trans (hu.sourceStep i)
  have hquiet : (v.src i).state = .quiet → v.notice i = none := fun hq => by
    rw [hv.notice]
    exact ho.notice_none (by rw [← hv.src, hq]; simp)
  have hoffers : ∀ p, s.offerCount p ≤ u.offerCount p := hstep.offerCount_le fun n p hn hp => by
    obtain ⟨conds, hm⟩ := failedExchange_record hquiet ((hv.notice i).trans hn)
    exact ⟨_, (hu.notice i).trans hm, hp⟩
  have hstands (hd : (v.failedExchange i).delivery = v.delivery) :
      u.settle.notices = (v.failedExchange i).notices ∧ u.settle.delivery = s.delivery := by
    have hdel : u.delivery = s.delivery := hu.delivery.trans (hd.trans hv.delivery)
    obtain ⟨h1, h2⟩ := hstep.settle_stands hs hoffers fun p => by simp only [State.queue, hdel]
    exact ⟨h1.trans hu.notices, h2.trans hdel⟩
  have hsources : u.settle.sources = (v.failedExchange i).sources :=
    (offLinks_fields (settle_offLinks u)).2.2.1.trans hu.sources
  have hsrc : u.settle.src i = (v.failedExchange i).src i := by simp only [State.src, hsources]
  have hthird (hd : (s.src i).state ≠ .disabled) (h2 : (s.src i).failures = 2) :
      v.failedExchange i = (v.losesSource i).applyConditions i code15Set :=
    failedExchange_third (by rwa [hv.src]) (by rwa [hv.src])
  have hlost : (v.losesSource i).src i = { s.src i with failures := 3, reach := .unreachable, code15 := true } := by
    rw [losesSource_src, hv.src]
  have hnot : (v.losesSource i).notice i = s.notice i := hv.notice i
  refine ⟨hstep.touchesOnly hs hoffers, fun h => ?_, fun hd h2 => ?_, fun hd h2 => ?_, fun hd h2 hen hno p => ?_,
    fun hq h2 => ?_, fun n hop h2 hn hm => ?_, fun n hop h2 hn hm => ?_, fun hc h2 => ?_⟩
  · have hF : v.failedExchange i = v := failedExchange_kept (by rwa [hv.src])
    obtain ⟨h1, h2⟩ := hstands (by rw [hF])
    rw [hF] at h1 hsources
    exact ⟨hsources.trans hv.sources, h1.trans hv.notices, h2⟩
  · have hF := failedExchange_counted (s := v) (i := i) (by rwa [hv.src]) (by rwa [hv.src])
    obtain ⟨h1, h2⟩ := hstands (by rw [hF]; rfl)
    rw [hF] at h1 hsrc
    rw [State.src_setSrc, if_pos rfl, hv.src] at hsrc
    exact ⟨hsrc, h1.trans hv.notices, h2⟩
  · obtain ⟨hrep, hreach, hfail, hcode⟩ := applyConditions_src (v.losesSource i) i code15Set
    rw [hsrc, hthird hd h2, hrep, hreach, hfail, hcode, hlost]
    exact ⟨rfl, rfl, rfl, rfl⟩
  · have hlatched := losesSource_latched (s := v) (i := i) (by rwa [hv.cfg])
      (by rw [← hno]; simp only [State.anyUnreachable, hv.cfg, hv.src]) p
    have hlater : LatchedKept (v.losesSource i) u.settle := by
      refine LatchedKept.trans ?_ (settle_latchedKept u)
      have := (applyConditions_sourceStep (v.losesSource i) i code15Set).latched
      rw [← hthird hd h2] at this
      exact this.trans (.of_attention hu.attention)
    exact hlater.getLsbD hlatched
  · have hF := hthird (by simp [hq]) h2
    rw [applyConditions_quiet (by rw [hlost]; exact hq), if_neg (by decide)] at hF
    have hstays : NoticeStays ((v.losesSource i).openNotice i code15Set) u.settle i := by
      rw [← hF]
      exact (hu.noticeStays i).trans (settle_noticeStays u i)
    have hwas := (hv.sourceStep i).trans (losesSource_sourceStep v i)
    exact opened_of_openNotice (ho.notice_none (by rw [hq]; simp)) hwas.config hwas.portState (by rw [hlost])
      hwas.order hv.queue hstays
  · have hF := hthird (by simp [hop]) h2
    rw [applyConditions_merge (by rw [hlost]; exact hop) (hnot.trans hn) hm] at hF
    have h1 := (hstands (by rw [hF]; exact (State.delivery_setNotice _ _ _).trans rfl)).1
    rw [hF] at h1
    simp only [State.notice, h1]
    exact (State.notice_setNotice _ _ _ _).trans (if_pos rfl)
  · have hF := hthird (by simp [hop]) h2
    rw [applyConditions_wait (by rw [hlost]; exact hop) (hnot.trans hn) hm] at hF
    have h1 := (hstands (by rw [hF]; rfl)).1
    rw [hF] at h1 hsrc
    unfold State.addArrears at hsrc
    rw [State.src_setSrc, if_pos rfl, hlost] at hsrc
    exact ⟨h1.trans hv.notices, by rw [hsrc]; rfl⟩
  · have hF := hthird (by simp [hc]) h2
    rw [applyConditions_closing (by rw [hlost]; exact hc)] at hF
    have h1 := (hstands (by rw [hF]; rfl)).1
    rw [hF] at h1 hsrc
    unfold State.addArrears at hsrc
    rw [State.src_setSrc, if_pos rfl, hlost] at hsrc
    exact ⟨h1.trans hv.notices, by rw [hsrc]; rfl⟩

/-! ### POLL_END without a good reply (O11) -/

/-- The outcome of a failed reply (R29). -/
theorem busOutcome_failed {w : Byte} {reply : Option FieldReply} (h : failedReply w reply) :
    busOutcome w reply = .badCheck ∨ busOutcome w reply = .noReply := by
  unfold busOutcome
  cases reply with
  | none => exact Or.inr rfl
  | some r =>
    dsimp only
    split
    · rename_i hlead
      rw [if_neg]
      · exact Or.inl rfl
      · rcases h with h | h
        · omega
        · exact fun hc => h hc.symm
    · exact Or.inr rfl

theorem handOutcome_failed {s : State} {t : InFlight} {i : Src} {o : BusOutcome} (h : t.afterClearAll = false)
    (ho : o = .badCheck ∨ o = .noReply) : s.handOutcome t i o = s.failedExchange i := by
  rcases ho with rfl | rfl <;> simp [State.handOutcome, h]

theorem pollEnd_failed {s : State} {g : InFlight} {e : PollEntry} {reply : Option FieldReply} (hs : Settled s)
    (ho : SourcesOk s) (hb : s.bus.state = .inFlight g) (hw : g.work = .poll e) (ha : g.afterClearAll = false)
    (hf : failedReply g.window reply) :
    ∃ t, exec (.pollEnd reply) s = .next t ∧ FailedExchange s t e.src := by
  have ho' := busOutcome_failed hf
  refine ⟨_, rfl, ?_⟩
  rw [hb]
  simp only [hw]
  rw [handOutcome_failed ha ho']
  exact failedExchange_settled hs ho (setBus_alike s _) (foldl_respond_alike _ _ _)

/-- Settles O11, as the poll's case of `failedExchange_settled`. -/
theorem thirdFailureMakesTheSourceUnreachable : Obligations.ThirdFailureMakesTheSourceUnreachable := by
  unfold Obligations.ThirdFailureMakesTheSourceUnreachable
  intro s g e reply hs ho hb hw ha hf
  obtain ⟨t, ht, h⟩ := pollEnd_failed hs ho hb hw ha hf
  refine ⟨t, ht, h.touches, h.kept, h.counted, fun hd h2 => ?_⟩
  obtain ⟨hfail, hreach, hcode, hrep⟩ := h.third hd h2
  exact ⟨hfail, hreach, hcode, hrep, h.latches hd h2, fun hq => h.opens hq h2,
    fun n hop hn => ⟨h.merges n hop h2 hn, h.waits n hop h2 hn⟩, fun hc => h.closing hc h2⟩

end Sys2Proof.Machine

/-! SUPPORT. The end of a notice that no port is offered, and the clear of a direct line. -/

namespace Sys2Proof.Machine

/-! ### The end of a notice that no port is offered -/

/-- What the end of a notice by CLOSE leaves: its record and its references are gone, and nothing else has changed but
the pass (R56, R70). -/
theorem endNotice_closed {s : State} {i : Src} {n : Notice} (hn : s.notice i = some n) :
    (s.endNotice i none).offNotices = s.offNotices ∧ (s.endNotice i none).attention = s.attention ∧
      (∀ j, (s.endNotice i none).notice j = if i = j then none else s.notice j) ∧
      (s.endNotice i none).notices.nextOrder = s.notices.nextOrder ∧
      (∀ p, (s.endNotice i none).queue p = (s.queue p).filter (fun j => j != i)) ∧
      (s.endNotice i none).stranded = s.stranded.filter (fun j => j != i) := by
  have hend : s.endNotice i none = (s.eraseNotice i).prunePass i := by
    unfold State.endNotice
    rw [hn]
  obtain ⟨-, -, hpn, -, -, hpa, -⟩ := offDelivery_fields (prunePass_offDelivery (s.eraseNotice i) i)
  obtain ⟨-, -, hrn, -, -, hra, -⟩ := offDelivery_fields (removeRefs_offDelivery s i)
  rw [hend]
  refine ⟨(offNotices_of_offDelivery (prunePass_offDelivery _ i)).trans (eraseNotice_offNotices s i),
    hpa.trans hra, fun j => ?_, ?_, fun p => ?_, ?_⟩
  · have : ((s.eraseNotice i).prunePass i).notice j = ((s.removeRefs i).setNotice i none).notice j := by
      simp only [State.notice, hpn]
      rfl
    rw [this, State.notice_setNotice]
    split
    · rfl
    · simp only [State.notice, hrn]
  · rw [hpn]
    show (s.removeRefs i).notices.nextOrder = _
    rw [hrn]
  · rw [prunePass_queue]
    exact removeRefs_queue s i p
  · simp only [State.stranded, hpn]
    rfl

theorem endNotice_closed_sourceStep {s : State} {i : Src} {n : Notice} (hn : s.notice i = some n) :
    SourceStep s (s.endNotice i none) i := by
  obtain ⟨hoff, hatt, hnot, hord, hqueue, hstr⟩ := endNotice_closed hn
  obtain ⟨_, hst, hsrc, _, he, hc, _⟩ := offNotices_fields hoff
  exact {
    stage := hst
    config := hc
    tx := fun p => by simp only [State.eng, he]
    portState := fun p => by simp only [State.eng, he]
    notices := fun j hj => by rw [hnot, if_neg (Ne.symm hj)]
    sources := fun j _ => by simp only [State.src, hsrc]
    order := hord.ge
    queue := fun p => by rw [hqueue p, List.filter_filter]; simp
    stranded := fun j hj => by simp [hstr, hj]
    latched := .of_attention hatt }

/-- A bus that never idles without cause makes no choice between events (R42, R43). -/
theorem arbiter_of_neverIdles {s : State} (h : BusNeverIdles s) : s.arbiter = s := by
  unfold State.arbiter
  split
  · rename_i hc
    obtain ⟨hclear, hpoll, hrun, hfat⟩ := h hc.2 hc.1
    have hadv : s.advanceScan = s := by
      unfold State.advanceScan
      rw [if_neg (by simp [hrun])]
    have hbid : (s.bus.fatLow && !s.bus.suspended) = false := by
      cases hf : s.bus.fatLow
      · rfl
      · rw [hfat hf]; rfl
    rw [hadv]
    unfold State.choose
    simp [hclear, hpoll, hrun, hbid]
  · rfl

theorem ofNum_src {f : Frame} {i : Src} (h : Src.ofNum (f.byte 0).toNat = some i) : f.src = i := by
  unfold Frame.src
  rw [h]
  rfl

theorem line_ofLine (k : Fin 8) : (Src.ofLine k).line = some k := by
  unfold Src.line Src.ofLine
  rw [dif_pos (Nat.le_add_right 48 k.val)]
  simp


theorem setLine_sourceStep (s : State) (k : Fin 8) (l : LineRt) (i : Src) : SourceStep s (s.setLine k l) i where
  stage := rfl
  config := rfl
  tx _ := rfl
  portState _ := rfl
  notices _ _ := rfl
  sources _ _ := rfl
  order := le_rfl
  queue _ := List.Perm.refl _
  stranded _ _ := Iff.rfl
  latched := .of_attention rfl

/-- An opening leaves the lines and all that no report changes. -/
theorem openNotice_lines (s : State) (i : Src) (conds : CodeSet) :
    (s.openNotice i conds).sources.lines = s.sources.lines := by
  obtain ⟨_, _, hs, _⟩ := offNotices_fields (walk_offNotices (s.recordOpening i conds) i)
  rw [openNotice_eq, hs]
  rfl

/-! ### The clear of a direct line (R9, R63, R60) -/

/-- A direct line whose clear has completed, before it opens again: the latch has taken the filtered level, and the
source is QUIET. -/
def State.lineCleared (s : State) (i : Src) (k : Fin 8) : State :=
  (s.setLine k { s.line k with latch := (s.line k).filtered == .active }).setSrc i { s.src i with
    reported := latchSet ((s.line k).filtered == .active), reach := .reachable, failures := 0, arrears := 0,
    state := .quiet }

/-- The conditions with which a direct line opens again after its clear (R60, R63). -/
def State.lineLeftOver (s : State) (i : Src) (k : Fin 8) : CodeSet :=
  (latchSet ((s.line k).filtered == .active) &&& (s.cfg i).mask) ||| (s.src i).arrears ||| heldSet (s.src i).code15

theorem beginClear_line {s : State} {i : Src} {k : Fin 8} (h : i.line = some k) (codes : CodeSet) :
    s.beginClear i codes = if s.lineLeftOver i k = 0 then s.lineCleared i k
      else (s.lineCleared i k).openNotice i (s.lineLeftOver i k) := by
  unfold State.beginClear
  rw [h]
  dsimp only
  unfold State.clearCompletion State.noteReport
  simp only [State.src_setSrc, if_true, State.cfg_setSrc, State.cfg_setLine, State.src_setLine, setSrc_setSrc]
  rfl

theorem lineCleared_sourceStep (s : State) (i : Src) (k : Fin 8) : SourceStep s (s.lineCleared i k) i :=
  (setLine_sourceStep s k _ i).trans (setSrc_sourceStep _ i _)

theorem lineCleared_src (s : State) (i : Src) (k : Fin 8) : (s.lineCleared i k).src i = { s.src i with
    reported := latchSet ((s.line k).filtered == .active), reach := .reachable, failures := 0, arrears := 0,
    state := .quiet } := by
  unfold State.lineCleared
  rw [State.src_setSrc, if_pos rfl]

/-- A CLOSE of a direct line's notice, less what it answers, seen from the state s before it: v is the line with its
clear completed, QUIET and without a record. -/
theorem closeNotice_line {s : State} {i : Src} {k : Fin 8} {n : Notice} (hi : i.line = some k)
    (hn : s.notice i = some n) {effective : CodeSet} (h15 : CodeSet.has15 effective = false)
    (hcode : (s.src i).code15 = false) {active : Bool} (hactive : active = decide ((s.line k).filtered = .active))
    {conds : CodeSet} (hconds : conds = ((if active then 1 else 0) &&& (s.cfg i).mask) ||| (s.src i).arrears |||
      CodeSet.minus n.conds effective) :
    ∃ v, s.closeNotice i n effective = (if conds = 0 then v else v.openNotice i conds) ∧ SourceStep s v i ∧
      v.bus = s.bus ∧ v.engines = s.engines ∧ v.notice i = none ∧ v.line k = { s.line k with latch := active } ∧
      v.src i = { s.src i with
        reported := if active then 1 else 0, reach := .reachable, failures := 0, arrears := 0, state := .quiet } ∧
      ∀ p, v.queue p = (s.queue p).filter (fun j => j != i) := by
  obtain ⟨hoff, -, hnot, -, hqueue, -⟩ := endNotice_closed hn
  obtain ⟨_, _, hsrc, hbus, heng, hcfg, _⟩ := offNotices_fields hoff
  have hstep := endNotice_closed_sourceStep hn
  have hline : (s.endNotice i none).line k = s.line k := by simp only [State.line, hsrc]
  have hc : (s.endNotice i none).cfg i = s.cfg i := by simp only [State.cfg, hcfg]
  have hlatch : ((s.line k).filtered == .active) = active := by rw [hactive, beq_eq_decide]
  have hset : latchSet active = if active then 1 else 0 := rfl
  generalize hu : (s.endNotice i none).setSrc i ((s.src i).closing n.conds effective) = u
  have husrc : u.src i = (s.src i).closing n.conds effective := by rw [← hu, State.src_setSrc, if_pos rfl]
  have huline : u.line k = s.line k := by rw [← hu]; exact hline
  have hover : u.lineLeftOver i k = conds := by
    have hucfg : u.cfg i = s.cfg i := by rw [← hu]; exact hc
    unfold State.lineLeftOver
    rw [husrc, huline, hucfg, hlatch, hset, hconds]
    simp [SourceRt.closing, h15, hcode, heldSet, BitVec.or_assoc]
  refine ⟨u.lineCleared i k, ?_, ?_, ?_, ?_, ?_, ?_, ?_, fun p => ?_⟩
  · rw [closeNotice_eq, hu, beginClear_line hi, hover]
  · exact (hstep.trans (hu ▸ setSrc_sourceStep _ i _)).trans (lineCleared_sourceStep u i k)
  · exact (congrArg State.bus hu).symm.trans hbus
  · exact (congrArg State.engines hu).symm.trans heng
  · show u.notice i = none
    rw [← hu, State.notice_setSrc, hnot, if_pos rfl]
  · show (u.setLine k _).line k = _
    rw [State.line_setLine, if_pos rfl, huline, hlatch]
  · rw [lineCleared_src, husrc, huline, hlatch, hset]
    simp [SourceRt.closing, h15]
  · show u.queue p = _
    rw [← hu]
    exact hqueue p

/-! ### CLOSE of a direct line's notice (O38) -/

theorem le16_ofLe16 (lo hi : Byte) : le16 (ofLe16 lo hi) = [lo, hi] := by
  unfold le16 ofLe16
  congr 1
  · ext n hn
    simp
  · congr 1
    ext n hn
    simp [show 8 + n < 16 by omega, show n < 16 by omega, BitVec.getLsbD_eq_getElem hn]

end Sys2Proof.Machine

/-! CLOSE of a direct line (O38). -/

namespace Sys2Proof.Machine

theorem lengthOk_of_admitted {s : State} {p : Port} {k : ReqKind} {f : Frame} (h : s.decodeCheck p k f = none) :
    lengthOk k f = true := by
  unfold State.decodeCheck at h
  by_contra hl
  rw [if_pos (by simpa using hl)] at h
  cases h

/-- The source and the mark as a CLOSE named them (R106). -/
theorem close_pair {f : Frame} (h : lengthOk .close f = true) : f.pair = f.payload.take 3 := by
  obtain ⟨head, payload⟩ := f
  have hlen : payload.length = 5 := by simpa [lengthOk] using h
  match payload, hlen with
  | [a, b, c, d, e], _ => simp [Frame.pair, Frame.mark, Frame.byte, le16_ofLe16]

theorem decideClose_claimed {s : State} {p : Port} {f : Frame} {n : Notice} (hn : s.notice f.src = some n)
    (hmark : n.mark = f.mark) (hc : n.state = .claimed p) : s.decideClose p f =
      ((s.closeNotice f.src n (f.clearSet &&& n.conds)).respond p (f.answer .ok f.pair)).arbiter := by
  have hnamed : s.named f = some n := by
    unfold State.named
    rw [hn]
    simp [hmark]
  unfold State.decideClose
  rw [hnamed]
  simp only [hc, if_true]

theorem popped_alike (s : State) (p : Port) (rest : List Frame) : Alike s (s.popped p rest) where
  stage := rfl
  config := rfl
  sources := rfl
  notices := rfl
  delivery := rfl
  attention := rfl
  ports q := by
    unfold State.popped
    rw [State.eng_setEng]
    split
    · subst_vars; exact ⟨rfl, rfl⟩
    · exact ⟨rfl, rfl⟩

theorem Alike.line {s t : State} (h : Alike s t) (k : Fin 8) : t.line k = s.line k := by
  simp only [State.line, h.sources]

/-- What of a CLOSE's effective clear set is left over is what its clear set does not name (R58). -/
theorem minus_effective (conds clear : CodeSet) : CodeSet.minus conds (clear &&& conds) = conds &&& ~~~clear := by
  unfold CodeSet.minus
  ext n hn
  simp only [BitVec.getElem_and, BitVec.getElem_not]
  cases conds[n] <;> simp

/-- CLOSE by the claimant: the notice is closed and OK is made, and the arbiter and the transmitters choose (R57,
R58). -/
theorem exec_close_claimed {s : State} {p : Port} {f : Frame} {rest : List Frame} {i : Src} {n : Notice}
    (hex : Executes s p .close f rest) (hsrc : f.src = i) (hn : s.notice i = some n) (hmark : n.mark = f.mark)
    (hc : n.state = .claimed p) : exec (.close p) s =
      .next (((s.popped p rest).closeNotice i n (f.clearSet &&& n.conds)).respond p
        ⟨0x22, .ok, f.payload.take 3⟩).arbiter.settle := by
  subst hsrc
  have hresp : f.answer .ok f.pair = ⟨0x22, .ok, f.payload.take 3⟩ := by
    rw [← close_pair (lengthOk_of_admitted hex.admitted)]
    exact congrArg (fun h => (⟨h, .ok, f.pair⟩ : Response)) hex.kind
  show Host.Outcome.next (s.execKind p .close (fun _ => true) (fun f t => t.decideClose p f)) = _
  rw [execKind_of_executes hex rfl, decideClose_claimed (((popped_alike s p rest).notice _).trans hn) hmark hc, hresp]

/-- What opening again, where conditions are left over, leaves as it was (R60). -/
theorem reopening_keeps (v : State) (i : Src) (conds : CodeSet) :
    SourceStep v (if conds = 0 then v else v.openNotice i conds) i ∧
      (if conds = 0 then v else v.openNotice i conds).bus = v.bus ∧
      (if conds = 0 then v else v.openNotice i conds).sources.lines = v.sources.lines ∧
      ((if conds = 0 then v else v.openNotice i conds).src i).reported = (v.src i).reported ∧
      ((if conds = 0 then v else v.openNotice i conds).src i).arrears = (v.src i).arrears := by
  split
  · exact ⟨.refl v i, rfl, rfl, rfl, rfl⟩
  · rw [openNotice_src]
    exact ⟨openNotice_sourceStep v i conds, (offSources_fields (openNotice_offSources v i conds)).2.2.1,
      openNotice_lines v i conds, rfl, rfl⟩

/-- Settles O38. The clear completes in `closeNotice_line`; what is left is that the rest of the event, the response and
the transmitters' choice, keeps what the statement names. -/
theorem closeOfADirectLineCompletesAtOnce : Obligations.CloseOfADirectLineCompletesAtOnce := by
  unfold Obligations.CloseOfADirectLineCompletesAtOnce
  intro s p f rest k n active conds hs hex hnum hn hmark hclaim hoffers hidle h15 hcode hactive hconds
  have hrun := exec_close_claimed hex (ofNum_src hnum) hn hmark hclaim
  generalize hi : Src.ofLine k = i at *
  have hpop := popped_alike s p rest
  obtain ⟨v, hclose, hstep, hbus, -, hgone, hline, hvsrc, hqueue⟩ :=
    closeNotice_line (s := s.popped p rest) (i := i) (k := k) (n := n) (effective := f.clearSet &&& n.conds)
      (active := active) (conds := conds) (hi ▸ line_ofLine k) ((hpop.notice i).trans hn)
      (by simp only [CodeSet.has15, BitVec.getLsbD_and, h15, Bool.and_false]) (by rw [hpop.src, hcode])
      (by rw [hpop.line, hactive]) (by rw [hpop.cfg, hpop.src, minus_effective, hconds])
  obtain ⟨hxstep, hxbus, hxlines, hxreported, hxarrears⟩ := reopening_keeps v i conds
  have hvstep := (hpop.sourceStep i).trans hstep
  generalize hx : (if conds = 0 then v else v.openNotice i conds) = x
    at hclose hxstep hxbus hxlines hxreported hxarrears
  generalize (⟨0x22, .ok, f.payload.take 3⟩ : Response) = r at hrun ⊢
  have hualike : Alike x (x.respond p r) := respond_alike x p r
  have hubus : (x.respond p r).bus = s.bus := hxbus.trans hbus
  have hustep : SourceStep s (x.respond p r) i := (hvstep.trans hxstep).trans (hualike.sourceStep i)
  have hrest : (x.respond p r).arbiter = x.respond p r := arbiter_of_neverIdles fun h1 h2 => by
    rw [hustep.stage] at h1 ⊢
    rw [hubus] at h2 ⊢
    exact hidle h1 h2
  rw [hclose, hrest] at hrun
  obtain ⟨_, -, htsrc, htbus, -, -⟩ := offLinks_fields (settle_offLinks (x.respond p r))
  have hstays : NoticeStays x (x.respond p r).settle i :=
    (hualike.noticeStays i).trans (settle_noticeStays (x.respond p r) i)
  refine ⟨_, hrun, settle_owes (by rw [respond_eng, if_pos rfl]; simp), htbus.trans hubus, ?_, ?_, ?_, fun hne => ?_,
    fun h0 => ?_, hustep.touchesOnly hs (hustep.offerCount_le fun m q hm hq => ?_)⟩
  · rw [← hpop.line k, ← hline]
    simp only [State.line, htsrc, hualike.sources, hxlines]
  · rw [hstays.source, hxreported, hvsrc]
  · rw [hstays.source, hxarrears, hvsrc]
  · rw [if_neg hne] at hx
    obtain ⟨h1, h2, m, h3, h4, h5, h6, h7, h8, h9, h10, h11, hwalk⟩ := openNotice_leaves (s := s) (v := v)
      (conds := conds) (t := (x.respond p r).settle) hvstep.config hvstep.portState (by rw [hvsrc, hpop.src])
      hvstep.order (by rw [hx]; exact hstays)
    refine ⟨h1, h2, m, h3, h4, h5, h6, h7, h8, h9, h10, h11, fun _ => hwalk (fun q => ?_) fun q => ?_⟩
    · simp [hqueue]
    · rw [hqueue, hpop.queue]
      omega
  · rw [if_pos h0] at hx
    exact ⟨by rw [hstays.source, ← hx, hvsrc], hstays.absent (by rw [← hx]; exact hgone)⟩
  · rw [hn] at hm
    cases hm
    rw [hoffers, PortSet.has_empty] at hq
    cases hq

end Sys2Proof.Machine

/-! SOURCE writes (O48). -/

namespace Sys2Proof.Machine

/-! ### How an accepted SOURCE write runs -/

theorem mayExecute_iff (s : State) (p : Port) : s.mayExecute p = true ↔
    s.stage ≠ .booting ∧ (s.eng p).state ≠ .disabled ∧ (s.eng p).responses.length < Config.responseLevel := by
  unfold State.mayExecute
  simp [and_assoc]

/-- A source that a write enables takes its reset fields (R4). -/
def SourceRt.enabled (r : SourceRt) : SourceRt :=
  { r with state := .quiet, arrears := 0, code15 := false, failures := 0, reach := .reachable }

theorem writeSource_sameEnabled {s : State} {i : Src} {new : SourceCfg} (h : (s.cfg i).enabled = new.enabled) :
    s.writeSource i new = (s.setCfg i new).triggerIf ((s.cfg i).route != new.route) := by
  unfold State.writeSource
  cases hn : new.enabled <;> simp [h, hn]

theorem writeSource_enables {s : State} {i : Src} {new : SourceCfg} (ho : (s.cfg i).enabled = false)
    (hn : new.enabled = true) :
    s.writeSource i new = ((s.setCfg i new).enableSource i).triggerIf ((s.cfg i).route != new.route) := by
  unfold State.writeSource
  simp [ho, hn]

theorem line_some {i : Src} {k : Fin 8} (h : i.line = some k) : i = Src.ofLine k := by
  unfold Src.line at h
  split at h
  · cases h
    apply Fin.ext
    simp only [Src.ofLine]
    omega
  · cases h

/-- A field source, or a direct line that is INACTIVE, reports nothing when it is enabled (R4). -/
theorem enableSource_inactive {s : State} {i : Src} (h : ∀ k, i = Src.ofLine k → (s.line k).filtered = .inactive) :
    s.enableSource i = s.setSrc i (s.src i).enabled := by
  unfold State.enableSource
  dsimp only
  split
  · rename_i k hk
    rw [if_neg]
    · rfl
    · rw [State.line_setSrc, h k (line_some hk)]
      simp
  · rfl

/-- A direct line that is ACTIVE latches and reports {0} when it is enabled (R4). -/
theorem enableSource_active {s : State} {k : Fin 8} (h : (s.line k).filtered = .active) :
    s.enableSource (Src.ofLine k) = ((s.setSrc (Src.ofLine k) (s.src (Src.ofLine k)).enabled).setLine k
      { s.line k with latch := true }).reportArrival (Src.ofLine k) code0Set := by
  unfold State.enableSource
  rw [line_ofLine]
  dsimp only
  rw [State.line_setSrc, if_pos h]
  rfl

theorem triggerPass_setEng (s : State) (p : Port) (e : PortEngine) :
    (s.setEng p e).triggerPass = s.triggerPass.setEng p e := by
  unfold State.triggerPass
  rw [State.delivery_setEng]
  split <;> rfl

theorem triggerIf_route (s : State) (a b : Route) :
    s.triggerIf (a != b) = if a = b then s else s.triggerPass := by
  unfold State.triggerIf
  by_cases h : a = b <;> simp [h]

/-- A SOURCE write that its configuration unit accepts, run: the write takes effect, OK is made, and the transmitters
choose (R174). -/
theorem exec_source_write {s : State} {c : Instr} {p : Port} {f : Frame} {rest : List Frame} {index : Byte}
    {content : List Byte} {i : Src} {new : SourceCfg}
    (hc : c = .sourceEnable p ∨ c = .sourceDisable p ∨ c = .writeSourceEntry p) (hfits : c.fits s f = true)
    (hw : WriteTaken s p f rest 0 index content) (hi : Src.ofNum index.toNat = some i)
    (hnew : decodeSource i content = some new) :
    exec c s = .next ((((s.popped p rest).writeSource i new).respondIfOn p (writeOk 0 index)).settle) := by
  have hrun (row : Frame → Bool) (hrow : row f = true) : s.execWrite p row =
      (((s.popped p rest).writeSource i new).respondIfOn p (writeOk 0 index)).settle := by
    have happly : (s.popped p rest).applyWrite p f = some ((s.popped p rest).writeSource i new) := by
      have hcontent : f.content = content := by rw [Frame.content, hw.payload]; rfl
      have h0 : f.byte 0 = 0 := by rw [Frame.byte, hw.payload]; rfl
      have h1 : f.byte 1 = index := by rw [Frame.byte, hw.payload]; rfl
      unfold State.applyWrite
      simp [h0, h1, hi, hcontent, hnew]
    have hok : f.answer .ok [f.byte 0, f.byte 1] = writeOk 0 index := by
      unfold Frame.answer Frame.byte writeOk
      rw [hw.payload, hw.executes.kind]
      rfl
    unfold State.execWrite
    rw [execKind_of_executes hw.executes hrow]
    unfold State.decideWrite
    have hright : (s.popped p rest).config.right = some p := hw.right
    have hstore : (s.popped p rest).config.store = .idle := hw.store
    simp only [hright, hstore, happly, hok, ne_eq, not_true_eq_false, if_false]
  rcases hc with rfl | rfl | rfl
  · exact congrArg Host.Outcome.next (hrun _ hfits)
  · exact congrArg Host.Outcome.next (hrun _ hfits)
  · exact congrArg Host.Outcome.next (hrun _ hfits)

/-- Rest between events depends on the stage, the notices, the queues and the port engines. -/
theorem Settled.congr {s t : State} (h : Settled s) (hst : t.stage = s.stage) (hn : t.notices = s.notices)
    (hq : ∀ p, t.queue p = s.queue p) (he : t.engines = s.engines) : Settled t where
  live p i hi := by
    have := h.live p i (hq p ▸ hi)
    simpa only [State.notice, hn] using this
  quiet p := by
    have heng : t.eng p = s.eng p := by simp only [State.eng, he]
    have htake : t.canTakeHead p = s.canTakeHead p := by
      rw [Bool.eq_iff_iff, canTakeHead_iff, canTakeHead_iff, hst, heng, hq]
      simp only [State.offerCount, State.notice, hn]
    have := h.quiet p
    unfold PortQuiet at this ⊢
    rwa [heng, htake]

/-- A write that has put the state u in force, with its pass, answers as `State.reply` says. -/
theorem write_replies {s u w : State} {p : Port} {rest : List Frame} {r : Response} {a b : Route} (hs : Settled s)
    (hon : (s.eng p).state ≠ .disabled) (hst : u.stage = s.stage) (hn : u.notices = s.notices)
    (hd : u.delivery = s.delivery) (he : u.engines = s.engines)
    (hw : w = u.setEng p { s.eng p with requests := rest }) :
    ((w.triggerIf (a != b)).respondIfOn p r).settle =
      (if a = b then u else u.triggerPass).reply p { s.eng p with requests := rest } r := by
  have hqueue (q : Port) : u.queue q = s.queue q := by simp only [State.queue, hd]
  generalize hv : (if a = b then u else u.triggerPass) = v
  have hvs : Settled v ∧ v.eng p = s.eng p := by
    rw [← hv]
    split
    · exact ⟨hs.congr hst hn hqueue he, by simp only [State.eng, he]⟩
    · obtain ⟨h1, -, h2, -, h3, -⟩ := offDelivery_fields (triggerPass_offDelivery u)
      exact ⟨hs.congr (h1.trans hst) (h2.trans hn) (fun q => (triggerPass_queue u q).trans (hqueue q)) (h3.trans he),
        by simp only [State.eng, h3, he]⟩
  have hcomm : w.triggerIf (a != b) = v.setEng p { s.eng p with requests := rest } := by
    rw [triggerIf_route, hw, ← hv]
    split
    · rfl
    · exact triggerPass_setEng u p _
  rw [hcomm]
  unfold State.respondIfOn
  rw [State.eng_setEng, if_pos rfl, if_neg hon]
  exact settle_respond hvs.1 (hvs.2 ▸ hon) hon (hvs.2 ▸ rfl) (hvs.2 ▸ rfl) (fun hidle => (hs.quiet p hidle).1)

/-! ### Reports and the lines -/

theorem applyConditions_lines (s : State) (i : Src) (new : CodeSet) :
    (s.applyConditions i new).sources.lines = s.sources.lines := by
  unfold State.applyConditions
  repeat' split
  all_goals first
    | rfl
    | exact openNotice_lines s i new

theorem reportArrival_lines (s : State) (i : Src) (report : CodeSet) :
    (s.reportArrival i report).sources.lines = s.sources.lines := by
  unfold State.reportArrival
  split
  · rfl
  · exact applyConditions_lines _ i _

theorem reportArrival_of_on {s : State} {i : Src} (h : (s.src i).state ≠ .disabled) (report : CodeSet) :
    s.reportArrival i report = (s.noteReport i report).applyConditions i (s.newConds i report) := by
  unfold State.reportArrival
  rw [if_neg h]
  dsimp only
  have hcode : ((s.noteReport i report).src i).code15 = (s.src i).code15 := by
    unfold State.noteReport
    rw [State.src_setSrc, if_pos rfl]
  rw [hcode]
  rfl

theorem noteReport_src (s : State) (i : Src) (report : CodeSet) : (s.noteReport i report).src i =
    { s.src i with reported := report, reach := .reachable, failures := 0 } := by
  unfold State.noteReport
  rw [State.src_setSrc, if_pos rfl]

/-- {0} under a mask. -/
theorem code0_masked (mask : CodeSet) : code0Set &&& mask = if mask.getLsbD 0 then 1 else 0 := by
  ext n hn
  have hbit : (code0Set)[n] = decide (n = 0) := by
    simp [code0Set]
  rw [BitVec.getElem_and, hbit]
  by_cases h0 : n = 0
  · subst h0
    cases h : mask.getLsbD 0 <;> simpa using h
  · cases mask.getLsbD 0 <;> simp [h0]


/-! ### A direct line that is enabled while it is ACTIVE (R4, R10 to R13) -/

/-- A trigger changes the pass alone (R89, R90). -/
theorem triggerIf_queue (s : State) (c : Bool) (p : Port) : (s.triggerIf c).queue p = s.queue p := by
  unfold State.triggerIf
  split
  · exact triggerPass_queue s p
  · rfl

theorem triggerIf_sourceStep (s : State) (c : Bool) (i : Src) : SourceStep s (s.triggerIf c) i := by
  obtain ⟨hst, hs, hn, -, he, ha, hc⟩ := offDelivery_fields (triggerIf_offDelivery s c)
  exact .of_eq hst hc (fun p => by simp only [State.eng, he, and_self]) hs hn (triggerIf_queue s c) ha i

theorem triggerIf_noticeStays (s : State) (c : Bool) (i : Src) : NoticeStays s (s.triggerIf c) i := by
  obtain ⟨-, hs, hn, -⟩ := offDelivery_fields (triggerIf_offDelivery s c)
  exact .of_eq hs hn (triggerIf_queue s c) i

/-- What the enabling of an ACTIVE direct line leaves, b being the state with the new entry in force and e the same with
the head frame taken from its queue. -/
theorem enableSource_line_leaves {b e : State} {k : Fin 8} {i : Src} (hi : i = Src.ofLine k) (he : Alike b e)
    (hactive : (b.line k).filtered = .active) :
    SourceStep b (e.enableSource i) i ∧ (e.enableSource i).bus = e.bus ∧
      (e.enableSource i).line k = { b.line k with latch := true } ∧
      ((e.enableSource i).src i).reported = 1 ∧
      ((b.cfg i).mask.getLsbD 0 = false → ((e.enableSource i).src i).state = .quiet ∧
        (e.enableSource i).notices = b.notices ∧ (e.enableSource i).delivery = b.delivery) ∧
      ((b.cfg i).mask.getLsbD 0 = true → ∃ v, e.enableSource i = v.openNotice i 1 ∧ SourceStep b v i ∧
        (v.src i).openings = (b.src i).openings ∧ ∀ p, v.queue p = b.queue p) := by
  subst hi
  generalize hq : (e.setSrc (Src.ofLine k) (e.src (Src.ofLine k)).enabled).setLine k
    { e.line k with latch := true } = q
  have hen : e.enableSource (Src.ofLine k) = q.reportArrival (Src.ofLine k) code0Set := by
    rw [enableSource_active (by rw [he.line, hactive]), hq]
  have hqstep : SourceStep b q (Src.ofLine k) := by
    rw [← hq]
    exact ((he.sourceStep _).trans (setSrc_sourceStep e _ _)).trans (setLine_sourceStep _ k _ _)
  have hqsrc : q.src (Src.ofLine k) = (b.src (Src.ofLine k)).enabled := by
    rw [← hq, State.src_setLine, State.src_setSrc, if_pos rfl, he.src]
  have hqline : q.line k = { b.line k with latch := true } := by
    rw [← hq, State.line_setLine, if_pos rfl, he.line]
  have hqnotices : q.notices = b.notices := by rw [← hq]; exact he.notices
  have hqdelivery : q.delivery = b.delivery := by rw [← hq]; exact he.delivery
  have hconds : q.newConds (Src.ofLine k) code0Set = if (b.cfg (Src.ofLine k)).mask.getLsbD 0 then 1 else 0 := by
    have hcfg : q.cfg (Src.ofLine k) = b.cfg (Src.ofLine k) := by simp only [State.cfg, hqstep.config]
    unfold State.newConds
    rw [hqsrc, hcfg, code0_masked]
    simp [SourceRt.enabled]
  have harrive := reportArrival_of_on (s := q) (i := Src.ofLine k) (by rw [hqsrc]; simp [SourceRt.enabled]) code0Set
  have hnsrc := noteReport_src q (Src.ofLine k) code0Set
  rw [harrive, hconds] at hen
  generalize hv : q.noteReport (Src.ofLine k) code0Set = v at hen hnsrc
  have hvstep : SourceStep b v (Src.ofLine k) := hqstep.trans (hv ▸ noteReport_sourceStep q _ _)
  have hvquiet : (v.src (Src.ofLine k)).state = .quiet := by rw [hnsrc, hqsrc]; rfl
  have hvbus : v.bus = e.bus := by rw [← hv, ← hq]; rfl
  have hvlines : v.sources.lines = q.sources.lines := by rw [← hv]; rfl
  obtain ⟨hstep, hbus, hlines, hreported, -⟩ := reopening_keeps v (Src.ofLine k)
    (if (b.cfg (Src.ofLine k)).mask.getLsbD 0 then 1 else 0)
  rw [← applyConditions_quiet hvquiet, ← hen] at hstep hbus hlines hreported
  rw [applyConditions_quiet hvquiet] at hen
  refine ⟨hvstep.trans hstep, hbus.trans hvbus, ?_, ?_, fun hmask => ?_, fun hmask => ?_⟩
  · rw [← hqline]
    simp only [State.line, hlines, hvlines]
  · rw [hreported, hnsrc]
    rfl
  · simp only [hmask, Bool.false_eq_true, if_false, if_true] at hen
    rw [hen]
    exact ⟨hvquiet, by rw [← hv]; exact hqnotices, by rw [← hv]; exact hqdelivery⟩
  · simp only [hmask, if_true, show (1 : CodeSet) ≠ 0 by decide, if_false] at hen
    refine ⟨v, hen, hvstep, by rw [hnsrc, hqsrc]; rfl, fun p => ?_⟩
    rw [← hv]
    simp only [State.queue]
    exact congrArg (fun d : DeliveryUnit => d.queues.get p) hqdelivery

/-- A source whose entry is not enabled has no record (R4). -/
theorem SourcesOk.notice_none_of_notEnabled {s : State} (ho : SourcesOk s) (hb : s.stage ≠ .booting) {i : Src}
    (hen : (s.cfg i).enabled = false) : s.notice i = none :=
  ho.notice_none fun hop => by
    rw [(ho.enabled hb i).mpr (by rw [hop]; simp)] at hen
    cases hen

/-- Settles O48. Where nothing is reported the write's effects are followed by an answer, as `write_replies` says; an
ACTIVE direct line that the write enables reports, as `enableSource_line_leaves` says. -/
theorem sourceWritesTakeEffect : Obligations.SourceWritesTakeEffect := by
  unfold Obligations.SourceWritesTakeEffect
  intro s c p f rest index content i new quiet hs hc hfits hw hi hnew hquiet
  obtain ⟨hb, hon, -⟩ := (mayExecute_iff s p).mp hw.executes.may
  have hrun := exec_source_write hc hfits hw hi hnew
  have hpopcfg : (s.popped p rest).cfg i = s.cfg i := rfl
  refine ⟨fun hsame => ?_, fun hoff hon' hline => ?_, fun k hoff hon' hik hactive => ?_⟩
  · rw [hrun, writeSource_sameEnabled (by rw [hpopcfg, hsame]), hpopcfg]
    exact congrArg Host.Outcome.next (write_replies (u := s.setCfg i new) hs hon rfl rfl rfl rfl rfl)
  · have hset : ((s.popped p rest).setCfg i new).enableSource i =
        ((s.setCfg i new).setSrc i quiet).setEng p { s.eng p with requests := rest } := by
      rw [enableSource_inactive (s := (s.popped p rest).setCfg i new) hline, hquiet]
      rfl
    rw [hrun, writeSource_enables (by rw [hpopcfg, hoff]) hon', hpopcfg, hset]
    exact congrArg Host.Outcome.next
      (write_replies (u := (s.setCfg i new).setSrc i quiet) hs hon rfl rfl rfl rfl rfl)
  · rw [writeSource_enables (by rw [hpopcfg, hoff]) hon', hpopcfg] at hrun
    have halike : Alike (s.setCfg i new) ((s.popped p rest).setCfg i new) := popped_alike (s.setCfg i new) p rest
    have hcfg : (s.setCfg i new).cfg i = new := by rw [State.cfg_setCfg, if_pos rfl]
    obtain ⟨hxstep, hxbus, hxline, hxreported, hxrests, hxopens⟩ := enableSource_line_leaves hik halike hactive
    rw [hcfg] at hxrests hxopens
    generalize ((s.popped p rest).setCfg i new).enableSource i = x
      at hrun hxstep hxbus hxline hxreported hxrests hxopens
    have hwstep := triggerIf_sourceStep x ((s.cfg i).route != new.route) i
    have hwstays := triggerIf_noticeStays x ((s.cfg i).route != new.route) i
    have hwqueue := triggerIf_queue x ((s.cfg i).route != new.route)
    obtain ⟨-, hwsources, hwnotices, hwbus, -⟩ :=
      offDelivery_fields (triggerIf_offDelivery x ((s.cfg i).route != new.route))
    generalize x.triggerIf ((s.cfg i).route != new.route) = w
      at hrun hwstep hwstays hwqueue hwsources hwnotices hwbus
    have halikeR := respond_alike w p (writeOk 0 index)
    have hrespond : w.respondIfOn p (writeOk 0 index) = w.respond p (writeOk 0 index) :=
      if_neg (by rw [hwstep.portState, hxstep.portState]; exact hon)
    rw [hrespond] at hrun
    have hwb : SourceStep (s.setCfg i new) w i := hxstep.trans hwstep
    have hub := hwb.trans (halikeR.sourceStep i)
    have hstays := (halikeR.noticeStays i).trans (settle_noticeStays (w.respond p (writeOk 0 index)) i)
    obtain ⟨-, -, htsrc, htbus, htcfg, -⟩ := offLinks_fields (settle_offLinks (w.respond p (writeOk 0 index)))
    refine ⟨_, hrun, settle_owes (by rw [respond_eng, if_pos rfl]; simp), htcfg.trans hub.config,
      htbus.trans (hwbus.trans hxbus), ?_, ?_, fun hmask => ?_, fun hmask => ?_⟩
    · refine Eq.trans ?_ hxline
      simp only [State.line, htsrc, halikeR.sources, hwsources]
    · rw [hstays.source, hwstays.source, hxreported]
    · obtain ⟨v, hv, hvstep, hvopen, hvqueue⟩ := hxopens hmask
      obtain ⟨h1, -, m, h3, h4, h5, h6, h7, -, -, -, -, hwalk⟩ := openNotice_leaves hvstep.config hvstep.portState
        hvopen hvstep.order (hv ▸ hwstays.trans hstays)
      rw [hcfg] at h6 h7
      refine ⟨m, h3, h1, h4, h5, h6, h7, fun ho => ?_⟩
      have hbare (q : Port) : i ∉ (s.setCfg i new).queue q :=
        hs.not_mem_queue (ho.notice_none_of_notEnabled hb hoff) q
      exact hwalk (fun q => by rw [hvqueue]; exact hbare q) fun q => by
        rw [filter_ne_of_not_mem (hbare q), hvqueue]
        omega
    · obtain ⟨hstate, hnot, hdel⟩ := hxrests hmask
      have hbs : Settled (s.setCfg i new) := hs.congr rfl rfl (fun _ => rfl) rfl
      have hunotices : (w.respond p (writeOk 0 index)).notices = s.notices := hwnotices.trans hnot
      have hqueue (q : Port) : (w.respond p (writeOk 0 index)).queue q = (s.setCfg i new).queue q :=
        (hwqueue q).trans (congrArg (fun d : DeliveryUnit => d.queues.get q) hdel)
      have hoffers (q : Port) := offerCount_mono (s := s.setCfg i new) (t := w.respond p (writeOk 0 index)) (p := q)
        fun j n hj ho => ⟨n, by rw [State.notice, hunotices]; exact hj, ho⟩
      have hstand := hub.settle_stands hbs hoffers hqueue
      exact ⟨by rw [hstays.source, hwstays.source, hstate], hstand.1.trans hunotices⟩

end Sys2Proof.Machine

/-! LINE_SAMPLE: the reports of the lines that rise in one tick (O8). -/

namespace Sys2Proof.Machine

/-! ### The report of a line that rises (R7) -/

theorem lineRose_eq {s : State} {k : Fin 8} : s.lineRose (Src.ofLine k) =
    (s.setLine k { s.line k with latch := true }).reportArrival (Src.ofLine k) code0Set := by
  unfold State.lineRose
  rw [line_ofLine]

theorem lineRose_sourceStep (s : State) (i : Src) : SourceStep s (s.lineRose i) i := by
  unfold State.lineRose
  split
  · exact .refl s i
  · exact (setLine_sourceStep s _ _ i).trans (reportArrival_sourceStep _ i _)

theorem lineRose_offSources (s : State) (i : Src) : (s.lineRose i).offSources = s.offSources := by
  unfold State.lineRose
  split
  · rfl
  · exact (reportArrival_offSources _ i _).trans rfl

theorem lineRose_line (s : State) (i : Src) (k : Fin 8) : (s.lineRose i).line k =
    if i = Src.ofLine k then { s.line k with latch := true } else s.line k := by
  have hlines (t : State) (c : CodeSet) : (t.reportArrival i c).line k = t.line k := by
    simp only [State.line, reportArrival_lines]
  unfold State.lineRose
  split
  · rename_i hi
    rw [if_neg]
    rintro rfl
    rw [line_ofLine] at hi
    cases hi
  · rename_i l hi
    rw [hlines, State.line_setLine]
    have hl : l = k ↔ i = Src.ofLine k := by
      constructor
      · rintro rfl
        exact line_some hi
      · rintro rfl
        rw [line_ofLine] at hi
        exact (Option.some.inj hi).symm
    by_cases h : l = k
    · subst h
      rw [if_pos rfl, if_pos (hl.mp rfl)]
    · rw [if_neg h, if_neg (mt hl.mpr h)]

theorem reportArrival_record {s : State} {i : Src} (h : (s.src i).state = .quiet → s.notice i = none)
    (report : CodeSet) {n : Notice} (hn : s.notice i = some n) :
    ∃ conds, (s.reportArrival i report).notice i = some { n with conds := conds } := by
  by_cases hd : (s.src i).state = .disabled
  · unfold State.reportArrival
    rw [if_pos hd]
    exact ⟨_, hn⟩
  · rw [reportArrival_of_on hd]
    refine applyConditions_record (fun hq => ?_) _ hn
    rw [noteReport_src] at hq
    exact h hq

/-- Of the record of its own source, and of any other, the report of a line changes the conditions alone. -/
theorem lineRose_record {s : State} (ho : SourcesOk s) (i : Src) {j : Src} {n : Notice} (hn : s.notice j = some n) :
    ∃ conds, (s.lineRose i).notice j = some { n with conds := conds } := by
  by_cases hj : j = i
  · subst hj
    unfold State.lineRose
    split
    · exact ⟨_, hn⟩
    · refine reportArrival_record (s := s.setLine _ _) (fun hq => ho.notice_none ?_) _ hn
      rw [State.src_setLine] at hq
      simp [hq]
  · exact ⟨n.conds, by rw [(lineRose_sourceStep s i).notices j hj, hn]⟩

theorem openNotice_queueGains (s : State) (i : Src) (conds : CodeSet) : QueueGains s (s.openNotice i conds) i :=
  (QueueGains.of_eq (fun _ => rfl) i).trans (walk_walkStep (s.recordOpening i conds) i).queue

/-- The report of a line gives a reference only to a notice that it opens (R11, R13). -/
theorem lineRose_queue {s : State} (ho : SourcesOk s) (i : Src) (p : Port) :
    (s.lineRose i).queue p = s.queue p ∨
      (s.notice i = none ∧ i ∉ s.queue p ∧ ((s.lineRose i).queue p).Perm (i :: s.queue p)) := by
  unfold State.lineRose
  split
  · exact Or.inl rfl
  · rename_i k _
    generalize hq : s.setLine k { s.line k with latch := true } = q
    have hqsrc : q.src i = s.src i := by rw [← hq, State.src_setLine]
    have hqqueue : q.queue p = s.queue p := by rw [← hq, State.queue_setLine]
    by_cases hd : (q.src i).state = .disabled
    · unfold State.reportArrival
      rw [if_pos hd]
      exact Or.inl hqqueue
    · rw [reportArrival_of_on hd, ← hqqueue]
      have hnsrc := noteReport_src q i code0Set
      have hnqueue : (q.noteReport i code0Set).queue p = q.queue p := rfl
      generalize q.noteReport i code0Set = v at hnsrc hnqueue
      rw [← hnqueue]
      unfold State.applyConditions
      split
      · exact Or.inl rfl
      · rename_i hquiet
        split
        · exact Or.inl rfl
        · refine (openNotice_queueGains v i _ p).imp_right fun h => ⟨ho.notice_none ?_, h⟩
          rw [hnsrc, hqsrc] at hquiet
          simp only at hquiet
          simp [hquiet]
      · split
        · exact Or.inl rfl
        · split <;> exact Or.inl rfl
      · exact Or.inl rfl

/-! ### The reports of all lines that rise in one tick -/

theorem lineRoses_sourcesOk (l : List Src) {s : State} (ho : SourcesOk s) : SourcesOk (l.foldl State.lineRose s) :=
  foldl_sourcesOk (fun _ i h => lineRose_sourcesOk h i) l ho

theorem lineRoses_offSources (l : List Src) (s : State) : (l.foldl State.lineRose s).offSources = s.offSources :=
  foldl_keeps State.offSources _ lineRose_offSources l s

theorem lineRoses_line (l : List Src) (s : State) (k : Fin 8) : (l.foldl State.lineRose s).line k =
    { s.line k with latch := (s.line k).latch || decide (Src.ofLine k ∈ l) } := by
  induction l generalizing s with
  | nil => simp
  | cons i l ih =>
    rw [List.foldl_cons, ih, lineRose_line]
    by_cases h : i = Src.ofLine k
    · simp [h]
    · simp [h, Ne.symm h]

theorem lineRoses_record (l : List Src) {s : State} (ho : SourcesOk s) {j : Src} {n : Notice}
    (hn : s.notice j = some n) : ∃ conds, (l.foldl State.lineRose s).notice j = some { n with conds := conds } := by
  induction l generalizing s n with
  | nil => exact ⟨_, hn⟩
  | cons i l ih =>
    obtain ⟨_, h⟩ := lineRose_record ho i hn
    obtain ⟨conds, h⟩ := ih (lineRose_sourcesOk ho i) h
    exact ⟨conds, h⟩

theorem lineRoses_latchedKept (l : List Src) (s : State) : LatchedKept s (l.foldl State.lineRose s) := by
  induction l generalizing s with
  | nil => exact .of_attention rfl
  | cons i l ih => exact (lineRose_sourceStep s i).latched.trans (ih _)

/-- The reports of other lines leave a source, its record and its places. -/
theorem lineRoses_others (l : List Src) (s : State) {i : Src} (hi : i ∉ l) :
    (l.foldl State.lineRose s).notice i = s.notice i ∧ NoticeStays s (l.foldl State.lineRose s) i := by
  induction l generalizing s with
  | nil => exact ⟨rfl, .of_eq rfl rfl (fun _ => rfl) i⟩
  | cons j l ih =>
    rw [List.mem_cons, not_or] at hi
    have hstep := lineRose_sourceStep s j
    obtain ⟨h1, h2⟩ := ih (s.lineRose j) hi.2
    exact ⟨h1.trans (hstep.notices i hi.1), (hstep.noticeStays hi.1).trans h2⟩

/-- What the reports of some lines have added to a queue: each reference once, of notices that had no place there. -/
theorem lineRoses_queue {l : List Src} (hl : l.Nodup) {s : State} (ho : SourcesOk s) (p : Port) :
    ∃ added : List Src, ((l.foldl State.lineRose s).queue p).Perm (added ++ s.queue p) ∧ added.Nodup ∧
      ∀ j ∈ added, j ∈ l ∧ s.placedAt j p = false := by
  induction l generalizing s with
  | nil => exact ⟨[], List.Perm.refl _, List.nodup_nil, by simp⟩
  | cons i l ih =>
    obtain ⟨hil, hl⟩ := List.nodup_cons.mp hl
    obtain ⟨added, hperm, hnodup, hadded⟩ := ih hl (lineRose_sourcesOk ho i)
    have hold (j : Src) (hj : j ∈ added) : j ∈ i :: l ∧ s.placedAt j p = false := by
      obtain ⟨hjl, hjp⟩ := hadded j hj
      have hne : j ≠ i := fun h => hil (h ▸ hjl)
      exact ⟨List.mem_cons_of_mem i hjl, ((lineRose_sourceStep s i).noticeStays hne).placed p ▸ hjp⟩
    rcases lineRose_queue ho i p with hq | ⟨hnone, hi, hq⟩
    · exact ⟨added, hq ▸ hperm, hnodup, hold⟩
    · refine ⟨i :: added, ?_, List.nodup_cons.mpr ⟨fun h => hil (hadded i h).1, hnodup⟩, fun j hj => ?_⟩
      · exact (hperm.trans (hq.append_left added)).trans List.perm_middle
      · rcases List.mem_cons.mp hj with rfl | hj
        · exact ⟨List.mem_cons_self, by simp [State.placedAt, hnone, hi]⟩
        · exact hold j hj


/-! ### The tick before its reports (R6, R116) -/

/-- A tick with every sample taken and every timer counted down, before any line reports. -/
def State.ticked (s : State) (levels : BitVec 8) : State :=
  ((s.tickTimers).sampleLines levels).spendFree (s.risingLines levels)

/-- The sources that report in a tick, in the order of their reports. -/
def State.reporters (s : State) (levels : BitVec 8) : List Src := s.inFreeOrder (s.risingLines levels)

theorem exec_lineSample (s : State) (levels : BitVec 8) : exec (.lineSample levels) s =
    .next ((s.reporters levels).foldl State.lineRose (s.ticked levels)).settle := rfl

theorem ticked_notice (s : State) (levels : BitVec 8) (i : Src) :
    (s.ticked levels).notice i = (s.notice i).map Notice.tick := by
  show (tabulate (fun i => (s.notice i).map Notice.tick)).get i = _
  rw [tabulate_get]

theorem ticked_line (s : State) (levels : BitVec 8) (k : Fin 8) :
    (s.ticked levels).line k = s.sampledLine levels k := by
  show (tabulate (s.sampledLine levels)).get k = _
  rw [tabulate_get]

theorem ticked_queue (s : State) (levels : BitVec 8) (p : Port) : (s.ticked levels).queue p = s.queue p := rfl

theorem ticked_sourcesOk {s : State} (ho : SourcesOk s) (levels : BitVec 8) : SourcesOk (s.ticked levels) :=
  ho.of_sourceView (tickTimers_sourceView s)

theorem ticked_placedAt (s : State) (levels : BitVec 8) (i : Src) (p : Port) :
    (s.ticked levels).placedAt i p = s.placedAt i p := by
  unfold State.placedAt
  rw [ticked_notice, ticked_queue]
  cases s.notice i <;> rfl

theorem mem_reporters (s : State) (levels : BitVec 8) (k : Fin 8) : Src.ofLine k ∈ s.reporters levels ↔
    s.stage ≠ .booting ∧ (s.src (Src.ofLine k)).state ≠ .disabled ∧ (s.line k).filtered = .inactive ∧
      (s.sampledLine levels k).filtered = .active := by
  unfold State.reporters State.inFreeOrder State.risingLines
  rw [(sortByKey_perm _ _).mem_iff, List.mem_filter, line_ofLine]
  simp [mem_srcAll, and_assoc]

theorem not_mem_reporters_of_field (s : State) (levels : BitVec 8) {i : Src} (h : i.isDirect = false) :
    i ∉ s.reporters levels := by
  have hline : i.line = none := by
    unfold Src.line
    rw [dif_neg (by simpa [Src.isDirect] using h)]
  unfold State.reporters State.inFreeOrder State.risingLines
  rw [(sortByKey_perm _ _).mem_iff, List.mem_filter, hline]
  simp

theorem reporters_nodup (s : State) (levels : BitVec 8) : (s.reporters levels).Nodup :=
  (sortByKey_perm _ _).nodup_iff.mpr ((List.nodup_finRange 56).filter _)

/-- The level and the filter count in force at a line (R6). -/
theorem levelOf_eq (s : State) (levels : BitVec 8) (k : Fin 8) : levelOf (s.linePolarity k) (levels.getLsbD k.val) =
    if levels.getLsbD k.val = (decide (s.stage ≠ .booting ∧ (s.cfg (Src.ofLine k)).polarity = .activeHigh)) then
      Level.active else Level.inactive := by
  unfold State.linePolarity
  by_cases hb : s.stage = .booting
  · cases levels.getLsbD k.val <;> simp [hb, levelOf]
  · cases levels.getLsbD k.val <;> cases h : (s.cfg (Src.ofLine k)).polarity <;> simp [hb, levelOf]

theorem filterCount_eq (s : State) :
    s.filterCount = if s.stage = .booting then 4 else s.config.tables.device.filterCount.toNat := rfl

/-- The three cases of a sample (R6). -/
theorem sample_same {l : LineRt} {level : Level} (h : level = l.filtered) (count : Nat) :
    l.sample level count = { l with stability := 0 } := by
  unfold LineRt.sample
  rw [if_pos h]

theorem sample_changes {l : LineRt} {level : Level} {count : Nat} (h : level ≠ l.filtered)
    (hc : count ≤ l.stability + 1) : l.sample level count = { l with filtered := level, stability := 0 } := by
  unfold LineRt.sample
  rw [if_neg h, if_pos hc]

theorem sample_counts {l : LineRt} {level : Level} {count : Nat} (h : level ≠ l.filtered)
    (hc : l.stability + 1 < count) : l.sample level count = { l with stability := l.stability + 1 } := by
  unfold LineRt.sample
  rw [if_neg h, if_neg (by omega)]

theorem sample_latch (l : LineRt) (level : Level) (count : Nat) : (l.sample level count).latch = l.latch := by
  unfold LineRt.sample
  repeat' split
  all_goals rfl

/-- What a whole tick makes of a line (R6, R7). -/
theorem lineSample_line (s : State) (levels : BitVec 8) (k : Fin 8) :
    ((s.reporters levels).foldl State.lineRose (s.ticked levels)).settle.line k =
      { s.sampledLine levels k with
        latch := (s.line k).latch || decide (Src.ofLine k ∈ s.reporters levels) } := by
  obtain ⟨_, _, hsrc, _⟩ := offLinks_fields
    (settle_offLinks ((s.reporters levels).foldl State.lineRose (s.ticked levels)))
  have hline := lineRoses_line (s.reporters levels) (s.ticked levels) k
  rw [ticked_line] at hline
  have hlatch : (s.sampledLine levels k).latch = (s.line k).latch := sample_latch _ _ _
  rw [hlatch] at hline
  rw [← hline]
  simp only [State.line, hsrc]

/-- Settles O8: `lineSample_line` for the lines, and for the rest what the tick, the reports and the transmitters'
choice each leave. -/
theorem lineSampleFiltersAndTicks : Obligations.LineSampleFiltersAndTicks := by
  unfold Obligations.LineSampleFiltersAndTicks
  intro s levels ho
  have hoff := lineRoses_offSources (s.reporters levels) (s.ticked levels)
  generalize hu : (s.reporters levels).foldl State.lineRose (s.ticked levels) = u at hoff
  obtain ⟨_, hstage, hbus, heng, hcfg, _⟩ := offSources_fields hoff
  obtain ⟨_, htstage, _, htbus, htcfg, _⟩ := offLinks_fields (settle_offLinks u)
  refine ⟨u.settle, by rw [exec_lineSample, hu], fun k level count hlevel hcount => ?_, fun i n hn => ?_,
    fun i hi => ?_, fun hs => ?_, ?_, htbus.trans hbus, htcfg.trans hcfg, htstage.trans hstage⟩
  · have hsample : s.sampledLine levels k = (s.line k).sample level count := by
      unfold State.sampledLine
      rw [levelOf_eq, filterCount_eq, ← hlevel, ← hcount]
    rw [← hu, lineSample_line, hsample]
    refine ⟨fun h => ?_, fun h hc => ?_, fun h hc => ?_, ?_⟩
    · rw [sample_same h]
      exact ⟨h.symm, rfl⟩
    · rw [sample_changes h hc]
      exact ⟨rfl, rfl⟩
    · rw [sample_counts h hc]
      exact ⟨rfl, rfl⟩
    · simp only [mem_reporters, hsample]
  · obtain ⟨conds, hrec⟩ := lineRoses_record (s.reporters levels) (ticked_sourcesOk ho levels) (j := i) (n := n.tick)
      (by rw [ticked_notice, hn]; rfl)
    obtain ⟨o, sh, ht⟩ := (settle_noticeStays u i).record _ (hu ▸ hrec)
    exact ⟨_, ht, rfl, rfl, rfl, rfl, fun p => PerPort.get_build _ p, rfl⟩
  · have hstays := (lineRoses_others (s.reporters levels) (s.ticked levels)
      (not_mem_reporters_of_field s levels hi)).2
    rw [hu] at hstays
    exact (settle_noticeStays u i).source.trans hstays.source
  · have hue (p : Port) : u.eng p = s.eng p := congrArg (fun e : PerPort PortEngine => e.get p) heng
    intro p
    rw [← hue p]
    refine settle_linksKept (fun q hidle => ?_) p
    rw [hue] at hidle ⊢
    obtain ⟨hrate, hon⟩ := hs.quiet q hidle
    exact ⟨hrate, fun hd => (hon hd).1⟩
  · have hlatched := lineRoses_latchedKept (s.reporters levels) (s.ticked levels)
    rw [hu] at hlatched
    exact LatchedKept.trans hlatched (settle_latchedKept u)

end Sys2Proof.Machine

/-! A line that rises, in its turn (O9). -/

namespace Sys2Proof.Machine

/-- Notices that have come to a port count among its newcomers. -/
theorem length_le_newcomers {s t : State} {i : Src} {p : Port} {added : List Src} (hnodup : added.Nodup)
    (h : ∀ j ∈ added, j ≠ i ∧ t.placedAt j p = true ∧ s.placedAt j p = false) :
    added.length ≤ newcomers s t i p := by
  refine (List.subperm_of_subset hnodup fun j hj => ?_).length_le
  obtain ⟨hji, ht, hs⟩ := h j hj
  rw [List.mem_filter]
  exact ⟨mem_srcAll j, by simp [hji, ht, hs]⟩

/-- The turn of a line that reports in a tick: w is the state that its report finds, after the reports of l, and t the
state at the tick's end, after those of m. -/
theorem reporter_turn {s w t : State} {levels : BitVec 8} {i : Src} {l m : List Src} (ho : SourcesOk s)
    (hlm : s.reporters levels = l ++ i :: m) (hw : w = l.foldl State.lineRose (s.ticked levels))
    (ht : t = ((s.reporters levels).foldl State.lineRose (s.ticked levels)).settle) :
    SourcesOk w ∧ w.notice i = (s.notice i).map Notice.tick ∧ w.src i = s.src i ∧
      s.notices.nextOrder ≤ w.notices.nextOrder ∧ NoticeStays (w.lineRose i) t i ∧
      ∀ p, i ∉ s.queue p → i ∉ w.queue p ∧ (s.queue p).length ≤ (w.queue p).length ∧
        (w.queue p).length ≤ (s.queue p).length + newcomers s t i p := by
  have hnodup := reporters_nodup s levels
  rw [hlm] at hnodup
  obtain ⟨hl, him, hdisj⟩ := List.nodup_append.mp hnodup
  have hil : i ∉ l := fun h => hdisj i h i List.mem_cons_self rfl
  have him := (List.nodup_cons.mp him).1
  have hticked := ticked_sourcesOk ho levels
  have hbefore := lineRoses_others l (s.ticked levels) hil
  have hfold : (s.reporters levels).foldl State.lineRose (s.ticked levels) = (i :: m).foldl State.lineRose w := by
    rw [hlm, List.foldl_append, hw]
  have hafter (j : Src) (hj : j ∉ i :: m) : NoticeStays w t j := by
    rw [ht, hfold]
    exact (lineRoses_others (i :: m) w hj).2.trans (settle_noticeStays _ j)
  rw [← hw] at hbefore
  refine ⟨hw ▸ lineRoses_sourcesOk l hticked, hbefore.1.trans (ticked_notice s levels i), hbefore.2.source,
    hbefore.2.order, ?_, fun p hi => ?_⟩
  · rw [ht, hfold]
    exact (lineRoses_others m (w.lineRose i) him).2.trans (settle_noticeStays _ i)
  · obtain ⟨added, hperm, hnodup', hadded⟩ := lineRoses_queue hl hticked p
    rw [← hw, ticked_queue] at hperm
    have hcome : added.length ≤ newcomers s t i p := length_le_newcomers hnodup' fun j hj => by
      obtain ⟨hjl, hjs⟩ := hadded j hj
      rw [ticked_placedAt] at hjs
      have hjw : j ∈ w.queue p := hperm.mem_iff.mpr (List.mem_append_left _ hj)
      refine ⟨fun h => hil (h ▸ hjl), ?_, hjs⟩
      rw [(hafter j fun h => hdisj j hjl j h rfl).placed p]
      simp [State.placedAt, hjw]
    have hlen := hperm.length_eq
    rw [List.length_append] at hlen
    refine ⟨fun h => ?_, by omega, by omega⟩
    rcases List.mem_append.mp (hperm.mem_iff.mp h) with h | h
    · exact hil (hadded i h).1
    · exact hi h

/-- The report of a line that is not DISABLED, before its conditions are applied (R7, R10). -/
theorem lineRose_noted {w : State} {k : Fin 8} (hd : (w.src (Src.ofLine k)).state ≠ .disabled) :
    ∃ v : State, w.lineRose (Src.ofLine k) = v.applyConditions (Src.ofLine k) (w.newConds (Src.ofLine k) 1) ∧
      v.src (Src.ofLine k) = { w.src (Src.ofLine k) with reported := 1, reach := .reachable, failures := 0 } ∧
      v.notices = w.notices ∧ v.delivery = w.delivery ∧ v.offSources = w.offSources := by
  generalize hq : w.setLine k { w.line k with latch := true } = q
  have hqsrc : q.src (Src.ofLine k) = w.src (Src.ofLine k) := by rw [← hq, State.src_setLine]
  refine ⟨q.noteReport (Src.ofLine k) 1, ?_, by rw [noteReport_src, hqsrc], ?_, ?_, ?_⟩
  · rw [lineRose_eq, hq, show code0Set = 1 from rfl, reportArrival_of_on (by rwa [hqsrc])]
    rw [← hq]
    rfl
  all_goals rw [← hq]; rfl


/-- A sample at the level that the polarity calls ACTIVE makes a line ACTIVE once the filter count is reached (R6). -/
theorem sampledLine_rises {s : State} {levels : BitVec 8} {k : Fin 8} (hb : s.stage ≠ .booting)
    (hf : (s.line k).filtered = .inactive)
    (hlevel : levels.getLsbD k.val = decide ((s.cfg (Src.ofLine k)).polarity = .activeHigh))
    (hcount : s.config.tables.device.filterCount.toNat ≤ (s.line k).stability + 1) :
    (s.sampledLine levels k).filtered = .active := by
  have hactive : levelOf (s.linePolarity k) (levels.getLsbD k.val) = .active := by
    rw [levelOf_eq, if_pos]
    rw [hlevel, decide_eq_decide]
    simp [hb]
  unfold State.sampledLine
  rw [hactive, filterCount_eq, if_neg hb, sample_changes (by simp [hf]) hcount]

theorem merges_tick (n : Notice) : n.tick.merges ↔ n.merges := Iff.rfl

/-- A QUIET line that reports {0} in its turn, from the state s before the tick to the state t after it: v is the line
with its report noted (R10, R11, R13). -/
theorem quietLine_reports {s v t : State} {i : Src} (ho : SourcesOk s) (hq : (s.src i).state = .quiet)
    (hcode : (s.src i).code15 = false) (hc : v.config = s.config) (he : v.engines = s.engines)
    (hsrc : v.src i = { s.src i with reported := 1, reach := .reachable, failures := 0 }) (hnone : v.notice i = none)
    (hord : s.notices.nextOrder ≤ v.notices.nextOrder)
    (hlen : ∀ p, i ∉ s.queue p → i ∉ v.queue p ∧ (s.queue p).length ≤ (v.queue p).length ∧
      (v.queue p).length ≤ (s.queue p).length + newcomers s t i p)
    (stays : NoticeStays (v.applyConditions i (s.newConds i 1)) t i) :
    ((s.cfg i).mask.getLsbD 0 = true → Opened s t i 1) ∧
      ((s.cfg i).mask.getLsbD 0 = false → (t.src i).state = .quiet ∧ t.notice i = none) := by
  have hvq : (v.src i).state = .quiet := by rw [hsrc, hq]
  have hconds : s.newConds i 1 = if (s.cfg i).mask.getLsbD 0 then 1 else 0 := by
    show (code0Set &&& (s.cfg i).mask) ||| (if (s.src i).code15 then 0x8000 else 0) = _
    rw [hcode, code0_masked]
    simp
  rw [applyConditions_quiet hvq, hconds] at stays
  refine ⟨fun hmask => ?_, fun hmask => ?_⟩
  · simp only [hmask, if_true, show (1 : CodeSet) ≠ 0 by decide, if_false] at stays
    have hst (p : Port) : (v.eng p).state = (s.eng p).state := by simp only [State.eng, he]
    obtain ⟨h1, h2, n, h3, h4, h5, h6, h7, h8, h9, h10, h11, hwalk⟩ :=
      openNotice_leaves hc hst (by rw [hsrc]) hord stays
    refine ⟨h1, h2, n, h3, h4, h5, h6, h7, h8, h9, h10, h11, fun hs => ?_⟩
    have hbare := hs.not_mem_queue (ho.notice_none (i := i) (by rw [hq]; simp))
    exact hwalk (fun p => (hlen p (hbare p)).1) fun p => by
      rw [filter_ne_of_not_mem (hbare p)]
      exact (hlen p (hbare p)).2
  · simp only [hmask, Bool.false_eq_true, if_false, if_true] at stays
    exact ⟨by rw [stays.source, hvq], stays.absent hnone⟩

/-- An OPEN line that reports in its turn: its notice takes the new conditions or leaves them to the arrears (R12). -/
theorem openLine_reports {s v t : State} {i : Src} {n : Notice} (conds : CodeSet) (hop : (s.src i).state = .opened)
    (hsrc : v.src i = { s.src i with reported := 1, reach := .reachable, failures := 0 })
    (hn : v.notice i = some n.tick) (stays : NoticeStays (v.applyConditions i conds) t i) :
    ∃ m, t.notice i = some m ∧ m.mark = n.mark ∧
      (Notice.merges n → m.conds = n.conds ||| conds ∧ (t.src i).arrears = (s.src i).arrears) ∧
      (¬ Notice.merges n → m.conds = n.conds ∧
        (t.src i).arrears = (s.src i).arrears ||| (conds &&& ~~~n.conds)) := by
  have hvop : (v.src i).state = .opened := by rw [hsrc, hop]
  by_cases hm : n.merges
  · rw [applyConditions_merge hvop hn ((merges_tick n).mpr hm)] at stays
    obtain ⟨o, sh, ht⟩ := stays.record { n.tick with conds := n.tick.conds ||| conds }
      (by rw [State.notice_setNotice, if_pos rfl])
    refine ⟨_, ht, rfl, fun _ => ⟨rfl, ?_⟩, fun h => absurd hm h⟩
    rw [stays.source, State.src_setNotice, hsrc]
  · rw [applyConditions_wait hvop hn (mt (merges_tick n).mp hm)] at stays
    obtain ⟨o, sh, ht⟩ := stays.record n.tick hn
    refine ⟨_, ht, rfl, fun h => absurd h hm, fun _ => ⟨rfl, ?_⟩⟩
    rw [stays.source]
    unfold State.addArrears
    rw [State.src_setSrc, if_pos rfl, hsrc]
    rfl

/-- Settles O9: the line's turn among the reports of the tick, as `reporter_turn` finds it, and then its report by the
state of the line. -/
theorem risingLineReportsItsCondition : Obligations.RisingLineReportsItsCondition := by
  unfold Obligations.RisingLineReportsItsCondition
  intro s levels k ho hb hd hf hlevel hcount
  have hrises := sampledLine_rises hb hf hlevel hcount
  have hmem := (mem_reporters s levels k).mpr ⟨hb, hd, hf, hrises⟩
  have hline := lineSample_line s levels k
  refine ⟨_, exec_lineSample s levels, by rw [hline, hrises], by rw [hline]; simp [hmem], ?_⟩
  obtain ⟨l, m, hlm⟩ := List.append_of_mem hmem
  have hwoff := lineRoses_offSources l (s.ticked levels)
  obtain ⟨-, hwn, hwsrc, hword, hwstays, hwlen⟩ := reporter_turn ho hlm rfl rfl
  generalize ((s.reporters levels).foldl State.lineRose (s.ticked levels)).settle = t at hwstays hwlen ⊢
  generalize l.foldl State.lineRose (s.ticked levels) = w at hwoff hwn hwsrc hword hwstays hwlen
  obtain ⟨v, hrose, hvsrc, hvn, hvd, hvoff⟩ := lineRose_noted (w := w) (k := k) (by rwa [hwsrc])
  obtain ⟨-, -, -, he, hc, -⟩ := offSources_fields (hvoff.trans hwoff)
  have hconds : w.newConds (Src.ofLine k) 1 = s.newConds (Src.ofLine k) 1 := by
    obtain ⟨-, -, -, -, hwc, -⟩ := offSources_fields hwoff
    have hwcfg : w.cfg (Src.ofLine k) = s.cfg (Src.ofLine k) := by
      simp only [State.cfg, hwc]
      rfl
    unfold State.newConds
    rw [hwsrc, hwcfg]
  rw [hrose, hconds] at hwstays
  rw [hwsrc] at hvsrc
  have hvnotice : v.notice (Src.ofLine k) = (s.notice (Src.ofLine k)).map Notice.tick := by
    rw [← hwn]
    simp only [State.notice, hvn]
  have hvqueue (p : Port) : v.queue p = w.queue p := by simp only [State.queue, hvd]
  obtain ⟨hrep, hreach, hfail, -⟩ := applyConditions_src v (Src.ofLine k) (s.newConds (Src.ofLine k) 1)
  rw [hvsrc] at hrep hreach hfail
  refine ⟨by rw [hwstays.source, hrep], by rw [hwstays.source, hreach], by rw [hwstays.source, hfail],
    fun hq hcode => ?_, fun n conds hop hn hconds' => ?_⟩
  · refine quietLine_reports ho hq hcode hc he hvsrc ?_ (by rw [hvn]; exact hword) (fun p hp => ?_) hwstays
    · rw [hvnotice, ho.notice_none (by rw [hq]; simp)]
      rfl
    · rw [hvqueue]
      exact hwlen p hp
  · subst hconds'
    exact openLine_reports _ hop hvsrc (by rw [hvnotice, hn]; rfl) hwstays

end Sys2Proof.Machine

/-! SUPPORT. What each operation leaves of the stage and the field bus. -/

namespace Sys2Proof.Machine

/-! ### The operations that leave the stage and the bus -/

/-- The stage and the field bus. -/
def State.busPart (s : State) : Stage × FieldBus := (s.stage, s.bus)

theorem busPart_fields {s t : State} (h : t.busPart = s.busPart) : t.stage = s.stage ∧ t.bus = s.bus := by
  simpa [State.busPart] using h

theorem busPart_of_offSources {s t : State} (h : t.offSources = s.offSources) : t.busPart = s.busPart := by
  obtain ⟨-, hst, hb, -⟩ := offSources_fields h
  simp only [State.busPart, hst, hb]

theorem busPart_of_offLinks {s t : State} (h : t.offLinks = s.offLinks) : t.busPart = s.busPart := by
  obtain ⟨-, hst, -, hb, -⟩ := offLinks_fields h
  simp only [State.busPart, hst, hb]

theorem busPart_of_offNotices {s t : State} (h : t.offNotices = s.offNotices) : t.busPart = s.busPart :=
  busPart_of_offSources (offSources_of_offNotices h)

theorem busPart_of_offDelivery {s t : State} (h : t.offDelivery = s.offDelivery) : t.busPart = s.busPart :=
  busPart_of_offNotices (offNotices_of_offDelivery h)

theorem foldl_busPart {α : Type} {op : State → α → State} (h : ∀ t x, (op t x).busPart = t.busPart) (l : List α)
    (s : State) : (l.foldl op s).busPart = s.busPart := foldl_keeps State.busPart op h l s

@[simp] theorem setEng_busPart (s : State) (p : Port) (e : PortEngine) : (s.setEng p e).busPart = s.busPart := rfl
@[simp] theorem setPass_busPart (s : State) (l : List Src) (b : Bool) : (s.setPass l b).busPart = s.busPart := rfl
@[simp] theorem setQueue_busPart (s : State) (p : Port) (q : List Src) : (s.setQueue p q).busPart = s.busPart := rfl
@[simp] theorem setLine_busPart (s : State) (k : Fin 8) (r : LineRt) : (s.setLine k r).busPart = s.busPart := rfl
@[simp] theorem setSrc_busPart (s : State) (i : Src) (r : SourceRt) : (s.setSrc i r).busPart = s.busPart := rfl
@[simp] theorem setCfg_busPart (s : State) (i : Src) (c : SourceCfg) : (s.setCfg i c).busPart = s.busPart := rfl
@[simp] theorem setPortCfg_busPart (s : State) (p : Port) (c : PortCfg) : (s.setPortCfg p c).busPart = s.busPart := rfl
@[simp] theorem latchRisen_busPart (old s : State) : (State.latchRisen old s).busPart = s.busPart := rfl
@[simp] theorem occur_busPart (s : State) (p : Port) (n : Nat) : (s.occur p n).busPart = s.busPart := rfl
@[simp] theorem respond_busPart (s : State) (p : Port) (r : Response) : (s.respond p r).busPart = s.busPart := rfl
@[simp] theorem withdraw_busPart (s : State) (p : Port) (w : Withdrawal) : (s.withdraw p w).busPart = s.busPart := rfl
@[simp] theorem dropRight_busPart (s : State) (p : Port) : (s.dropRight p).busPart = s.busPart := rfl
@[simp] theorem emptyLists_busPart (s : State) (p : Port) (st : PortState) : (s.emptyLists p st).busPart = s.busPart :=
  rfl
@[simp] theorem cutLink_busPart (s : State) (p : Port) : (s.cutLink p).busPart = s.busPart := rfl

@[simp] theorem modNotice_busPart (s : State) (i : Src) (f : Notice → Notice) : (s.modNotice i f).busPart = s.busPart :=
  busPart_of_offNotices (modNotice_rest s i f).1

@[simp] theorem walk_busPart (s : State) (i : Src) : (s.walk i).busPart = s.busPart :=
  busPart_of_offNotices (walk_offNotices s i)

@[simp] theorem walkIfBare_busPart (s : State) (i : Src) : (s.walkIfBare i).busPart = s.busPart :=
  busPart_of_offNotices (walkIfBare_offNotices s i)

@[simp] theorem triggerPass_busPart (s : State) : s.triggerPass.busPart = s.busPart :=
  busPart_of_offDelivery (triggerPass_offDelivery s)

@[simp] theorem triggerIf_busPart (s : State) (c : Bool) : (s.triggerIf c).busPart = s.busPart :=
  busPart_of_offDelivery (triggerIf_offDelivery s c)

@[simp] theorem endPass_busPart (s : State) : s.endPass.busPart = s.busPart :=
  busPart_of_offDelivery (endPass_offDelivery s)

@[simp] theorem removeRefs_busPart (s : State) (i : Src) : (s.removeRefs i).busPart = s.busPart :=
  busPart_of_offDelivery (removeRefs_offDelivery s i)

@[simp] theorem endNotice_busPart (s : State) (i : Src) (r : Option Reason) : (s.endNotice i r).busPart = s.busPart :=
  busPart_of_offLinks (endNotice_offLinks s i r)

@[simp] theorem reportArrival_busPart (s : State) (i : Src) (report : CodeSet) :
    (s.reportArrival i report).busPart = s.busPart := busPart_of_offSources (reportArrival_offSources s i report)

@[simp] theorem failedExchange_busPart (s : State) (i : Src) : (s.failedExchange i).busPart = s.busPart :=
  busPart_of_offSources (failedExchange_offSources s i)

@[simp] theorem handOutcome_busPart (s : State) (t : InFlight) (i : Src) (o : BusOutcome) :
    (s.handOutcome t i o).busPart = s.busPart := busPart_of_offSources (handOutcome_offSources s t i o)

@[simp] theorem clearCompletion_busPart (s : State) (i : Src) (report : CodeSet) :
    (s.clearCompletion i report).busPart = s.busPart := busPart_of_offSources (clearCompletion_offSources s i report)

@[simp] theorem lineQuery_busPart (s : State) (k : Fin 8) : (s.lineQuery k).busPart = s.busPart :=
  busPart_of_offSources (lineQuery_offSources s k)

@[simp] theorem lineRose_busPart (s : State) (i : Src) : (s.lineRose i).busPart = s.busPart :=
  busPart_of_offSources (lineRose_offSources s i)

@[simp] theorem settle_busPart (s : State) : s.settle.busPart = s.busPart := busPart_of_offLinks (settle_offLinks s)

@[simp] theorem revokeAll_busPart (s : State) (p : Port) : (s.revokeAll p).busPart = s.busPart := by
  unfold State.revokeAll State.dropOffer State.revokeClaim
  dsimp only
  rw [foldl_busPart (by simp), foldl_busPart (by simp)]

@[simp] theorem emptyQueue_busPart (s : State) (p : Port) : (s.emptyQueue p).busPart = s.busPart := by
  unfold State.emptyQueue State.addTried
  exact foldl_busPart (by simp) _ s

@[simp] theorem makeClaim_busPart (s : State) (p : Port) (i : Src) (n : Notice) :
    (s.makeClaim p i n).busPart = s.busPart := by
  unfold State.makeClaim
  dsimp only
  rw [removeRefs_busPart, foldl_busPart (fun t q => by split <;> simp)]
  rfl

@[simp] theorem setBacklog_busPart (s : State) (q : Port) (limit : Byte) :
    (s.setBacklog q limit).busPart = s.busPart := by
  unfold State.setBacklog State.addTried
  dsimp only
  rw [foldl_busPart (by simp)]
  rfl

@[simp] theorem enableSource_busPart (s : State) (i : Src) : (s.enableSource i).busPart = s.busPart := by
  unfold State.enableSource
  dsimp only
  split
  · split <;> simp
  · rfl

/-! ### Changes of the bus between two choices of the arbiter -/

/-- A bid round is in flight. -/
def FieldBus.bidding (b : FieldBus) : Prop := ∃ t, b.state = .inFlight t ∧ t.work = .bid

/-- The bid-failure run and the suspension flag stand, with no new bid round, or a lifted suspension has reset both
(R27, R28). -/
def RunCarried (a b : FieldBus) : Prop :=
  (b.bidRun = a.bidRun ∧ b.suspended = a.suspended ∧ (b.bidding → a.bidding)) ∨ (b.bidRun = 0 ∧ b.suspended = false)

theorem RunCarried.refl (b : FieldBus) : RunCarried b b := .inl ⟨rfl, rfl, id⟩

theorem RunCarried.trans {a b c : FieldBus} (h : RunCarried a b) (k : RunCarried b c) : RunCarried a c := by
  rcases k with ⟨k1, k2, k3⟩ | k
  · rcases h with ⟨h1, h2, h3⟩ | ⟨h1, h2⟩
    · exact .inl ⟨k1.trans h1, k2.trans h2, fun e => h3 (k3 e)⟩
    · exact .inr ⟨k1.trans h1, k2.trans h2⟩
  · exact .inr k

/-- Between s and t neither FAT nor the suspension flag has changed, no work has joined a list that was empty, and no
transaction has begun or ended; one in flight may be marked or stripped of requesters (R35, R40). -/
structure BusKept (s t : State) : Prop where
  stage : t.stage = s.stage
  run : RunCarried s.bus t.bus
  suspended : t.bus.suspended = s.bus.suspended
  fat : t.bus.fatLow = s.bus.fatLow
  clears : s.bus.clearList = [] → t.bus.clearList = []
  polls : s.bus.pollQueue = [] → t.bus.pollQueue = []
  idle : t.bus.state = .idle ↔ s.bus.state = .idle

theorem BusKept.of_eq {s t : State} (h : t.busPart = s.busPart) : BusKept s t := by
  obtain ⟨hst, hb⟩ := busPart_fields h
  exact ⟨hst, by rw [hb]; exact .refl _, by rw [hb], by rw [hb], by rw [hb]; exact id, by rw [hb]; exact id, by rw [hb]⟩

theorem BusKept.trans {s t u : State} (h : BusKept s t) (k : BusKept t u) : BusKept s u :=
  ⟨k.stage.trans h.stage, h.run.trans k.run, k.suspended.trans h.suspended, k.fat.trans h.fat,
    fun e => k.clears (h.clears e), fun e => k.polls (h.polls e), k.idle.trans h.idle⟩

/-- Requesters that leave a poll in flight leave its transaction in flight (R40). -/
theorem dropPolls_busKept (s : State) (p : Port) : BusKept s (s.dropPolls p) := by
  have hstate : ((s.dropPolls p).bus.state = .idle ↔ s.bus.state = .idle) ∧
      ((s.dropPolls p).bus.bidding → s.bus.bidding) := by
    unfold State.dropPolls FieldBus.bidding
    dsimp only [State.setBus]
    cases hst : s.bus.state with
    | idle => simp
    | gap r => simp
    | inFlight t => cases hw : t.work <;> simp [hw]
  refine ⟨rfl, .inl ⟨rfl, rfl, hstate.2⟩, rfl, rfl, id, fun h => ?_, hstate.1⟩
  show (s.bus.pollQueue.map _).filter _ = []
  rw [h]
  rfl

theorem detachEffects_busKept (s : State) (p : Port) (st : PortState) : BusKept s (s.detachEffects p st) := by
  unfold State.detachEffects
  split
  · refine (BusKept.of_eq ?_).trans ((dropPolls_busKept ((s.revokeAll p).emptyQueue p) p).trans (.of_eq ?_)) <;> simp
  · exact .of_eq rfl

end Sys2Proof.Machine

/-! SUPPORT. What a command can do to the stage and the field bus, the arbiter's choice, and the bus's invariants over
it. -/

namespace Sys2Proof.Machine

/-! ### What a command does to the stage and the bus -/

/-- What a command can do to the stage and the bus (chapter 2): leave them but for marks; reset them; end a transaction,
which enters its gap, a bid round with the effect of R27 on the bid-failure run; or end in a choice of the arbiter. -/
inductive BusStep (s t : State) : Prop
  | kept (h : BusKept s t)
  | reset (stage : t.stage = .booting) (idle : t.bus.state = .idle) (run : t.bus.bidRun = 0)
      (lifted : t.bus.suspended = false)
  | ended (g : InFlight) (was : s.bus.state = .inFlight g) (gap : t.bus.state = .gap g.rate)
      (stage : t.stage = s.stage) (run : t.bus.bidRun = s.bus.bidRun) (flag : t.bus.suspended = s.bus.suspended)
  | won (g : InFlight) (was : s.bus.state = .inFlight g) (bid : g.work = .bid) (gap : t.bus.state = .gap g.rate)
      (stage : t.stage = s.stage) (run : t.bus.bidRun = 0) (flag : t.bus.suspended = s.bus.suspended)
  | failed (g : InFlight) (was : s.bus.state = .inFlight g) (bid : g.work = .bid) (gap : t.bus.state = .gap g.rate)
      (stage : t.stage = s.stage)
      (run : t.bus.bidRun = if s.bus.bidRun < Config.suspendAt then s.bus.bidRun + 1 else s.bus.bidRun)
      (flag : t.bus.suspended = (s.bus.suspended || decide (Config.suspendAt ≤ t.bus.bidRun)))
  | chosen (u : State) (awake : u.stage ≠ .booting ∨ u.bus.state = .idle) (carried : RunCarried s.bus u.bus)
      (after : t.busPart = u.arbiter.busPart)

/-- What comes before and after a command's effect leaves the stage and the bus. -/
theorem BusStep.congr {s s' t t' : State} (h : BusStep s t) (hs : s'.busPart = s.busPart)
    (ht : t'.busPart = t.busPart) :
    BusStep s' t' := by
  obtain ⟨hs1, hs2⟩ := busPart_fields hs
  obtain ⟨ht1, ht2⟩ := busPart_fields ht
  cases h with
  | kept h => exact .kept ((BusKept.of_eq hs.symm).trans (h.trans (.of_eq ht)))
  | reset a b c d => exact .reset (by rw [ht1, a]) (by rw [ht2, b]) (by rw [ht2, c]) (by rw [ht2, d])
  | ended g a b c d e =>
    exact .ended g (hs2 ▸ a) (ht2 ▸ b) (by rw [ht1, c, hs1]) (by rw [ht2, d, hs2]) (by rw [ht2, e, hs2])
  | won g a b c d e f =>
    exact .won g (hs2 ▸ a) b (ht2 ▸ c) (by rw [ht1, d, hs1]) (by rw [ht2, e]) (by rw [ht2, f, hs2])
  | failed g a b c d e f =>
    exact .failed g (hs2 ▸ a) b (ht2 ▸ c) (by rw [ht1, d, hs1]) (by rw [ht2, e, hs2]) (by rw [ht2, f, hs2])
  | chosen u a b c => exact .chosen u a (hs2 ▸ b) (ht.trans c)

theorem BusStep.of_eq {s t : State} (h : t.busPart = s.busPart) : BusStep s t := .kept (.of_eq h)

/-! ### What a choice of the arbiter leaves (R42, R43) -/

/-- The source whose scan step waits (R41). -/
def State.scanWaiting (s : State) : Option Src := if s.stage = .scanning then Src.ofNum s.bus.cursor else none

/-- A bid round has its turn: FAT is low and bidding not suspended, and the last transaction was no bid round or no
other work waits (R43). -/
def State.BidDue (s : State) : Prop :=
  s.bus.fatLow = true ∧ s.bus.suspended = false ∧
    (s.bus.prev ≠ .bid ∨ (s.bus.clearList = [] ∧ s.bus.pollQueue = [] ∧ s.scanWaiting = none))

/-- The test that `State.choose` makes. -/
theorem bidDue_iff (s : State) : (s.bus.fatLow && !s.bus.suspended && (s.bus.prev != .bid ||
    !(!s.bus.clearList.isEmpty || !s.bus.pollQueue.isEmpty || s.scanWaiting.isSome))) = true ↔ s.BidDue := by
  unfold State.BidDue
  simp [and_assoc]

theorem choose_bid {s : State} (h : s.BidDue) : s.choose = s.openTransaction .bid :=
  if_pos ((bidDue_iff s).mpr h)

/-- Where no bid round has its turn the head clear comes first, then the head poll, then the scan step (R43). -/
theorem choose_work {s : State} (h : ¬ s.BidDue) : s.choose =
    match s.bus.clearList with
    | c :: rest => (s.setBus { s.bus with clearList := rest }).openTransaction (.clear c false)
    | [] =>
      match s.bus.pollQueue with
      | e :: rest => (s.setBus { s.bus with pollQueue := rest }).openTransaction (.poll e)
      | [] =>
        match s.scanWaiting with
        | some i => s.openTransaction (.scan i)
        | none => s :=
  if_neg (mt (bidDue_iff s).mp h)

theorem choose_clear {s : State} {c : ClearEntry} {rest : List ClearEntry} (h : ¬ s.BidDue)
    (hc : s.bus.clearList = c :: rest) :
    s.choose = (s.setBus { s.bus with clearList := rest }).openTransaction (.clear c false) := by
  simp only [choose_work h, hc]

theorem choose_poll {s : State} {e : PollEntry} {rest : List PollEntry} (h : ¬ s.BidDue)
    (hc : s.bus.clearList = []) (hp : s.bus.pollQueue = e :: rest) :
    s.choose = (s.setBus { s.bus with pollQueue := rest }).openTransaction (.poll e) := by
  simp only [choose_work h, hc, hp]

theorem choose_scan {s : State} {i : Src} (h : ¬ s.BidDue) (hc : s.bus.clearList = []) (hp : s.bus.pollQueue = [])
    (hi : s.scanWaiting = some i) : s.choose = s.openTransaction (.scan i) := by
  simp only [choose_work h, hc, hp, hi]

theorem choose_nothing {s : State} (h : ¬ s.BidDue) (hc : s.bus.clearList = []) (hp : s.bus.pollQueue = [])
    (hi : s.scanWaiting = none) : s.choose = s := by
  simp only [choose_work h, hc, hp, hi]

/-- The bus of a choice, by the work chosen: a bid round only while bidding is not suspended, and nothing at all only
when no work waits (R27, R43). -/
theorem choose_bus (s : State) :
    s.choose.bus.bidRun = s.bus.bidRun ∧ s.choose.bus.suspended = s.bus.suspended ∧ s.choose.stage = s.stage ∧
      ((s.bus.suspended = false ∧ s.choose.bus.state ≠ .idle) ∨
        (¬ s.choose.bus.bidding ∧ s.choose.bus.state ≠ .idle) ∨
        (s.choose = s ∧ s.bus.clearList = [] ∧ s.bus.pollQueue = [] ∧ s.scanWaiting = none ∧
          (s.bus.fatLow = true → s.bus.suspended = true))) := by
  have busy (t : State) (w : BusWork) : (t.openTransaction w).bus.state ≠ .idle := by simp [State.openTransaction]
  have noBid (t : State) (w : BusWork) (hw : w ≠ .bid) : ¬ (t.openTransaction w).bus.bidding := by
    rintro ⟨g, hg, hbid⟩
    cases hg
    exact hw hbid
  by_cases hbid : s.BidDue
  · rw [choose_bid hbid]
    exact ⟨rfl, rfl, rfl, .inl ⟨hbid.2.1, busy _ _⟩⟩
  · cases hclear : s.bus.clearList with
    | cons c rest =>
      rw [choose_clear hbid hclear]
      exact ⟨rfl, rfl, rfl, .inr (.inl ⟨noBid _ _ (by simp), busy _ _⟩)⟩
    | nil =>
      cases hpoll : s.bus.pollQueue with
      | cons e rest =>
        rw [choose_poll hbid hclear hpoll]
        exact ⟨rfl, rfl, rfl, .inr (.inl ⟨noBid _ _ (by simp), busy _ _⟩)⟩
      | nil =>
        cases hscan : s.scanWaiting with
        | some i =>
          rw [choose_scan hbid hclear hpoll hscan]
          exact ⟨rfl, rfl, rfl, .inr (.inl ⟨noBid _ _ (by simp), busy _ _⟩)⟩
        | none =>
          rw [choose_nothing hbid hclear hpoll hscan]
          refine ⟨rfl, rfl, rfl, .inr (.inr ⟨rfl, rfl, rfl, rfl, fun hf => ?_⟩)⟩
          by_contra hs
          exact hbid ⟨hf, by simpa using hs, .inr ⟨hclear, hpoll, hscan⟩⟩

/-- The cursor moves, and past source 48 the scan ends (R41, R187). -/
theorem advanceScan_bus (s : State) : s.advanceScan.bus = { s.bus with cursor := s.advanceScan.bus.cursor } ∧
    (s.advanceScan.stage = s.stage ∨ (s.stage = .scanning ∧ s.advanceScan.stage = .running)) ∧
    (s.advanceScan.stage = .scanning → (Src.ofNum s.advanceScan.bus.cursor).isSome = true) := by
  unfold State.advanceScan
  split
  · rename_i hst
    dsimp only
    split
    · exact ⟨rfl, .inr ⟨hst, rfl⟩, fun h => by cases h⟩
    · rename_i hpos
      refine ⟨rfl, .inl rfl, fun _ => ?_⟩
      show (Src.ofNum (s.scanPosition s.bus.cursor)).isSome = true
      unfold State.scanPosition at hpos ⊢
      split
      · rename_i i _
        simp [Src.ofNum, Src.num, show i.val + 1 ≤ 56 by omega]
      · rename_i hnone
        rw [hnone] at hpos
        exact absurd rfl hpos
  · rename_i hst
    exact ⟨rfl, .inl rfl, fun h => absurd h hst⟩

/-- After a choice the bid-failure run and the suspension flag are as before, and a bid round is in flight only where
one was or bidding is not suspended (R27). -/
theorem arbiter_bidRun (s : State) : s.arbiter.bus.bidRun = s.bus.bidRun ∧
    s.arbiter.bus.suspended = s.bus.suspended ∧
    (s.arbiter.bus.bidding → s.bus.bidding ∨ s.bus.suspended = false) := by
  unfold State.arbiter
  split
  · rename_i hc
    obtain ⟨hrun, hflag, -, hcases⟩ := choose_bus s.advanceScan
    obtain ⟨hadv, -⟩ := advanceScan_bus s
    refine ⟨by rw [hrun, hadv], by rw [hflag, hadv], fun hbid => ?_⟩
    rcases hcases with ⟨hopen, -⟩ | ⟨hno, -⟩ | ⟨hsame, -⟩
    · exact .inr (by rw [← hopen, hadv])
    · exact absurd hbid hno
    · rw [hsame, hadv] at hbid
      exact .inl hbid
  · exact ⟨rfl, rfl, .inl⟩

/-- After a choice the bus is IDLE outside BOOTING only when there is nothing to do (R42, R43). -/
theorem arbiter_neverIdles (s : State) : BusNeverIdles s.arbiter := by
  intro hon hidle
  unfold State.arbiter at hon hidle ⊢
  split
  · rename_i hc
    rw [if_pos hc] at hon hidle
    obtain ⟨-, -, hstage, hcases⟩ := choose_bus s.advanceScan
    rcases hcases with ⟨-, hbusy⟩ | ⟨-, hbusy⟩ | ⟨hsame, hclear, hpoll, hscan, hfat⟩
    · exact absurd hidle hbusy
    · exact absurd hidle hbusy
    · rw [hsame] at hon ⊢
      refine ⟨hclear, hpoll, ?_, hfat⟩
      obtain ⟨-, -, hcursor⟩ := advanceScan_bus s
      cases hst : s.advanceScan.stage with
      | booting => exact absurd hst hon
      | running => rfl
      | scanning =>
        have hwaits := hcursor hst
        rw [State.scanWaiting, if_pos hst] at hscan
        rw [hscan] at hwaits
        cases hwaits
  · rename_i hc
    rw [if_neg hc] at hon hidle
    exact absurd ⟨hidle, hon⟩ hc

theorem arbiter_booting (s : State) : s.arbiter.stage = .booting ↔ s.stage = .booting := by
  unfold State.arbiter
  split
  · rw [(choose_bus _).2.2.1]
    exact advanceScan_booting s
  · exact Iff.rfl

/-! ### The invariants of the bus over a step -/

theorem bidRunOk_iff (s : State) : BidRunOk s ↔ s.bus.bidRun ≤ Config.suspendAt ∧
    (s.bus.suspended = true ↔ s.bus.bidRun = Config.suspendAt) ∧ (s.bus.suspended = true → ¬ s.bus.bidding) := by
  constructor
  · rintro ⟨hb, hf, hn⟩
    exact ⟨hb, hf, fun hs ⟨t, ht, hw⟩ => hn hs t ht hw⟩
  · rintro ⟨hb, hf, hn⟩
    exact ⟨hb, hf, fun hs t ht hw => hn hs ⟨t, ht, hw⟩⟩

theorem not_bidding_of_gap {b : FieldBus} {r : FieldRate} (h : b.state = .gap r) : ¬ b.bidding := by
  rintro ⟨t, ht, -⟩
  rw [h] at ht
  cases ht

theorem RunCarried.bidRunOk {a b : FieldBus} (h : RunCarried a b) (hbound : a.bidRun ≤ Config.suspendAt)
    (hflag : a.suspended = true ↔ a.bidRun = Config.suspendAt) (hbid : a.suspended = true → ¬ a.bidding) :
    b.bidRun ≤ Config.suspendAt ∧ (b.suspended = true ↔ b.bidRun = Config.suspendAt) ∧
      (b.suspended = true → ¬ b.bidding) := by
  rcases h with ⟨h1, h2, h3⟩ | ⟨h1, h2⟩
  · rw [h1, h2]
    exact ⟨hbound, hflag, fun hf hb => hbid hf (h3 hb)⟩
  · rw [h1, h2]
    exact ⟨by decide, by decide, fun hf => by cases hf⟩

/-- R27 over every command. -/
theorem BusStep.bidRunOk {s t : State} (h : BusStep s t) (hs : BidRunOk s) : BidRunOk t := by
  rw [bidRunOk_iff] at hs ⊢
  obtain ⟨hbound, hflag, hbid⟩ := hs
  cases h with
  | kept h => exact h.run.bidRunOk hbound hflag hbid
  | reset _ _ hrun hopen => rw [hrun, hopen]; exact ⟨by decide, by decide, fun hf => by cases hf⟩
  | ended g _ hgap _ hrun hsame => rw [hrun, hsame]; exact ⟨hbound, hflag, fun _ => not_bidding_of_gap hgap⟩
  | won g hwas hwork hgap _ hrun hsame =>
    have hopen : s.bus.suspended = false := by
      rw [← Bool.not_eq_true]
      exact fun hf => hbid hf ⟨g, hwas, hwork⟩
    rw [hrun, hsame, hopen]
    exact ⟨by decide, by decide, fun _ => not_bidding_of_gap hgap⟩
  | failed g hwas hwork hgap _ hrun hnow =>
    have hopen : s.bus.suspended = false := by
      rw [← Bool.not_eq_true]
      exact fun hf => hbid hf ⟨g, hwas, hwork⟩
    have hlt : s.bus.bidRun < Config.suspendAt := by
      refine lt_of_le_of_ne hbound fun he => ?_
      rw [hflag.mpr he] at hopen
      cases hopen
    rw [if_pos hlt] at hrun
    rw [hnow, hopen, Bool.false_or, decide_eq_true_eq, hrun]
    exact ⟨hlt, by omega, fun _ => not_bidding_of_gap hgap⟩
  | chosen u _ hcarried hafter =>
    obtain ⟨-, hb⟩ := busPart_fields hafter
    obtain ⟨hrun, hsame, hround⟩ := arbiter_bidRun u
    rw [hb, hrun, hsame]
    obtain ⟨h1, h2, h3⟩ := hcarried.bidRunOk hbound hflag hbid
    refine ⟨h1, h2, fun hf hb => ?_⟩
    rcases hround hb with hu | hu
    · exact h3 hf hu
    · rw [hf] at hu; cases hu

/-- R42 and R43 over every command. -/
theorem BusStep.neverIdles {s t : State} (h : BusStep s t) (hs : BusNeverIdles s) : BusNeverIdles t := by
  intro hon hidle
  cases h with
  | kept h =>
    obtain ⟨hclear, hpoll, hrun, hfat⟩ := hs (h.stage ▸ hon) (h.idle.mp hidle)
    exact ⟨h.clears hclear, h.polls hpoll, by rw [h.stage, hrun], by rw [h.fat, h.suspended]; exact hfat⟩
  | reset hstage _ _ _ => exact absurd hstage hon
  | ended _ _ hgap _ _ _ => rw [hgap] at hidle; cases hidle
  | won _ _ _ hgap _ _ _ => rw [hgap] at hidle; cases hidle
  | failed _ _ _ hgap _ _ _ => rw [hgap] at hidle; cases hidle
  | chosen u _ _ hafter =>
    obtain ⟨hst, hb⟩ := busPart_fields hafter
    rw [hst] at hon ⊢
    rw [hb] at hidle ⊢
    exact arbiter_neverIdles u hon hidle

/-- R44 over every command. -/
theorem BusStep.restsInBooting {s t : State} (h : BusStep s t) (hs : BusRestsInBooting s) : BusRestsInBooting t := by
  intro hboot
  have nothingInFlight {g : InFlight} (hstage : t.stage = s.stage) (hwas : s.bus.state = .inFlight g) : False := by
    rw [hs (hstage ▸ hboot)] at hwas
    cases hwas
  cases h with
  | kept h => exact h.idle.mpr (hs (h.stage ▸ hboot))
  | reset _ hidle _ _ => exact hidle
  | ended _ hwas _ hstage _ _ => exact (nothingInFlight hstage hwas).elim
  | won _ hwas _ _ hstage _ _ => exact (nothingInFlight hstage hwas).elim
  | failed _ hwas _ _ hstage _ _ => exact (nothingInFlight hstage hwas).elim
  | chosen u hawake _ hafter =>
    obtain ⟨hst, hb⟩ := busPart_fields hafter
    have hu : u.stage = .booting := (arbiter_booting u).mp (hst ▸ hboot)
    have hrest : u.arbiter = u := by
      unfold State.arbiter
      rw [if_neg (fun hc => hc.2 hu)]
    rw [hb, hrest]
    exact hawake.resolve_left (fun hc => hc hu)

end Sys2Proof.Machine

/-! What each command does to the stage and the field bus (O53). -/

namespace Sys2Proof.Machine

/-! ### The requests (chapter 8) -/

/-- A request changes the stage and the bus as its decision does, from a state outside BOOTING. -/
theorem execHead_busStep {s : State} {p : Port} {named : Frame → Bool} {run : Frame → State → State}
    (hrun : ∀ f t, t.stage ≠ .booting → BusStep t (run f t)) : BusStep s (s.execHead p named run) := by
  unfold State.execHead
  split
  · rename_i hmay
    split
    · exact .of_eq rfl
    · split
      · rename_i f rest _ _
        exact (hrun f (s.popped p rest) ((mayExecute_iff s p).mp hmay).1).congr rfl (settle_busPart _)
      · exact .of_eq rfl
  · exact .of_eq rfl

theorem execKind_busStep {s : State} {p : Port} {k : ReqKind} {named : Frame → Bool} {run : Frame → State → State}
    (hrun : ∀ f t, t.stage ≠ .booting → BusStep t (run f t)) : BusStep s (s.execKind p k named run) := by
  refine execHead_busStep fun f t ht => ?_
  split
  · exact .of_eq (respond_busPart _ _ _)
  · exact hrun f t ht

/-- A request whose decision leaves the stage and the bus. -/
theorem execKind_busStep_of_eq {s : State} {p : Port} {k : ReqKind} {named : Frame → Bool}
    {run : Frame → State → State} (hrun : ∀ f t, (run f t).busPart = t.busPart) :
    BusStep s (s.execKind p k named run) :=
  execKind_busStep fun f t _ => .of_eq (hrun f t)

theorem decideAttach_busPart (s : State) (p : Port) (f : Frame) : (s.decideAttach p f).busPart = s.busPart := by
  unfold State.decideAttach State.setPortState
  dsimp only
  split
  · rfl
  · simp
  · split <;> rfl
  · split <;> rfl

theorem decideHold_busPart (s : State) (p : Port) (f : Frame) : (s.decideHold p f).busPart = s.busPart := by
  unfold State.decideHold
  split <;> rfl

theorem decideResume_busPart (s : State) (p : Port) (f : Frame) : (s.decideResume p f).busPart = s.busPart := by
  unfold State.decideResume State.setPortState
  split
  · simp
  · rfl

theorem decideRelease_busPart (s : State) (p : Port) (f : Frame) : (s.decideRelease p f).busPart = s.busPart := by
  unfold State.decideRelease
  split
  · rfl
  · split
    · rw [walk_busPart]
      rfl
    · rfl

theorem decideTakeRight_busPart (s : State) (p : Port) (f : Frame) : (s.decideTakeRight p f).busPart = s.busPart := by
  unfold State.decideTakeRight
  repeat' split
  all_goals rfl

theorem decideGiveRight_busPart (s : State) (p : Port) (f : Frame) : (s.decideGiveRight p f).busPart = s.busPart := by
  unfold State.decideGiveRight
  split <;> rfl

theorem decideStore_busPart (s : State) (p : Port) (f : Frame) : (s.decideStore p f).busPart = s.busPart := by
  unfold State.decideStore
  repeat' split
  all_goals rfl

/-- Between s and t only the lists of waiting work have changed. -/
def ListsChanged (s t : State) : Prop :=
  t.stage = s.stage ∧ t.bus = { s.bus with clearList := t.bus.clearList, pollQueue := t.bus.pollQueue }

theorem ListsChanged.of_eq {s t : State} (h : t.busPart = s.busPart) : ListsChanged s t := by
  obtain ⟨hst, hb⟩ := busPart_fields h
  exact ⟨hst, by rw [hb]⟩

/-- Work that joins a list, followed by a choice of the arbiter. -/
theorem ListsChanged.chosen {s u : State} (h : ListsChanged s u) (hon : s.stage ≠ .booting) : BusStep s u.arbiter := by
  obtain ⟨hst, hb⟩ := h
  refine .chosen u (.inl (hst ▸ hon)) (.inl ⟨by rw [hb], by rw [hb], ?_⟩) rfl
  unfold FieldBus.bidding
  rw [hb]
  exact id

/-- A CLOSE adds at most its clear to the clear list (R34, R59). -/
theorem closeNotice_listsChanged (s : State) (i : Src) (n : Notice) (effective : CodeSet) :
    ListsChanged s (s.closeNotice i n effective) := by
  rw [closeNotice_eq]
  have hbefore : ((s.endNotice i none).setSrc i ((s.src i).closing n.conds effective)).busPart = s.busPart := by simp
  generalize (s.endNotice i none).setSrc i ((s.src i).closing n.conds effective) = t at hbefore
  obtain ⟨hst, hb⟩ := busPart_fields hbefore
  unfold State.beginClear
  split
  · exact ⟨hst, by rw [← hb]; rfl⟩
  · refine .of_eq (Eq.trans ?_ hbefore)
    dsimp only
    rw [clearCompletion_busPart]
    rfl

theorem decideClose_busStep {s : State} (hon : s.stage ≠ .booting) (p : Port) (f : Frame) :
    BusStep s (s.decideClose p f) := by
  unfold State.decideClose
  split
  · exact .of_eq rfl
  · split
    · exact ListsChanged.chosen (closeNotice_listsChanged s f.src _ _) hon
    · exact .of_eq rfl

theorem decideClaim_busStep {s : State} (hon : s.stage ≠ .booting) (p : Port) (f : Frame) :
    BusStep s (s.decideClaim p f) := by
  unfold State.decideClaim
  split
  · exact .of_eq rfl
  · split
    · split <;> exact .of_eq rfl
    · split
      · rename_i n _ _ _ _
        have hclaim := makeClaim_busPart s p f.src n
        unfold State.claimOffered
        dsimp only
        split
        · exact .of_eq (by rw [respond_busPart, modNotice_busPart, hclaim])
        · have hst := (busPart_fields hclaim).1
          refine BusStep.congr ?_ hclaim.symm rfl
          exact ListsChanged.chosen (closeNotice_listsChanged (s.makeClaim p f.src n) f.src n n.conds) (hst ▸ hon)
      · exact .of_eq rfl
    · exact .of_eq rfl

theorem decidePoll_busStep {s : State} (hon : s.stage ≠ .booting) (p : Port) (f : Frame) :
    BusStep s (s.decidePoll p f) := by
  unfold State.decidePoll
  dsimp only
  split
  · exact .of_eq (by rw [respond_busPart, lineQuery_busPart])
  · split
    · exact .of_eq rfl
    · split
      · refine .kept ⟨rfl, .inl ⟨rfl, rfl, id⟩, rfl, rfl, id, fun h => ?_, Iff.rfl⟩
        show s.bus.pollQueue.map _ = []
        rw [h]
        rfl
      · exact ListsChanged.chosen ⟨rfl, rfl⟩ hon

/-- RESUME_FIELD: a choice follows where a suspension is lifted (R28, R42). -/
theorem decideResumeField_busStep {s : State} (hon : s.stage ≠ .booting) (p : Port) (fatLow : Bool) (f : Frame) :
    BusStep s (s.decideResumeField p fatLow f) := by
  unfold State.decideResumeField
  dsimp only
  split
  · refine .chosen _ (.inl ?_) (.inr ?_) rfl
    · exact hon
    · exact ⟨rfl, rfl⟩
  · rename_i hs
    have hclear : s.bus.suspended = false := by simpa using hs
    exact .kept ⟨rfl, .inr ⟨rfl, rfl⟩, hclear.symm, rfl, id, id, Iff.rfl⟩

/-! ### WRITE_ENTRY, detaches and the store -/

theorem disablePort_busKept (s : State) (q : Port) : BusKept s (s.disablePort q) :=
  (detachEffects_busKept s q .disabled).trans (.of_eq (cutLink_busPart _ _))

theorem decideDetach_busKept (s : State) (p : Port) (f : Frame) : BusKept s (s.decideDetach p f) :=
  (detachEffects_busKept s p .detached).trans (.of_eq (by
    unfold State.decideDetach
    rw [respond_busPart, triggerIf_busPart]))

theorem breakPort_busKept (s : State) (p : Port) : BusKept s (s.breakPort p) :=
  (detachEffects_busKept s p .detached).trans (.of_eq (by
    unfold State.breakPort
    rw [triggerIf_busPart, cutLink_busPart]))

theorem writePort_busKept (s : State) (p q : Port) (new : PortCfg) : BusKept s (s.writePort p q new) := by
  have henable : BusKept s (if (s.portCfg q).enabled && !new.enabled then s.disablePort q
      else if !(s.portCfg q).enabled && new.enabled then s.enablePort q else s) := by
    split
    · exact disablePort_busKept s q
    · split <;> exact .of_eq rfl
  refine henable.trans (.of_eq ?_)
  unfold State.writePort
  dsimp only
  generalize (if (s.portCfg q).enabled && !new.enabled then s.disablePort q
      else if !(s.portCfg q).enabled && new.enabled then s.enablePort q else s) = t
  have hlimit : (if (s.portCfg q).backlog = new.backlog then t else t.setBacklog q new.backlog).busPart =
      t.busPart := by
    split
    · rfl
    · exact setBacklog_busPart t q _
  rw [triggerIf_busPart]
  split
  · rw [setPortCfg_busPart, hlimit]
  · exact (setEng_busPart _ _ _).trans ((setPortCfg_busPart _ _ _).trans hlimit)

/-- A disable takes the source's clear off the list, or marks it discarded in flight (R34, R35, R65). -/
theorem disableSource_busKept (s : State) (i : Src) : BusKept s (s.disableSource i) := by
  have hdiscard (st : BusState) : ((st.discardClear i = .idle ↔ st = .idle)) ∧
      ∀ t, st.discardClear i = .inFlight t → t.work = .bid → st = .inFlight t := by
    unfold BusState.discardClear
    cases st with
    | idle => simp
    | gap r => simp
    | inFlight g =>
      cases hg : g.work with
      | clear e d =>
        simp only [hg, reduceCtorEq, BusState.inFlight.injEq, true_and]
        rintro t rfl hw
        cases hw
      | bid => simp [hg]
      | poll e => simp [hg]
      | scan j => simp [hg]
  have hmid : BusKept (s.endNotice i (some .disabled)) ((s.endNotice i (some .disabled)).setBus
      { (s.endNotice i (some .disabled)).bus with
        clearList := (s.endNotice i (some .disabled)).bus.clearList.filter (fun e => e.src != i)
        state := (s.endNotice i (some .disabled)).bus.state.discardClear i }) := by
    generalize s.endNotice i (some .disabled) = t
    refine ⟨rfl, .inl ⟨rfl, rfl, ?_⟩, rfl, rfl, fun h => ?_, id, (hdiscard t.bus.state).1⟩
    · rintro ⟨g, hg, hw⟩
      exact ⟨g, (hdiscard t.bus.state).2 g hg hw, hw⟩
    · show t.bus.clearList.filter _ = []
      rw [h]
      rfl
  refine (BusKept.of_eq (endNotice_busPart s i (some .disabled))).trans (hmid.trans (.of_eq ?_))
  unfold State.disableSource
  dsimp only
  split <;> rfl

theorem writeSource_busKept (s : State) (i : Src) (new : SourceCfg) : BusKept s (s.writeSource i new) := by
  have hdisable : BusKept s (if (s.cfg i).enabled && !new.enabled then s.disableSource i else s) := by
    split
    · exact disableSource_busKept s i
    · exact .of_eq rfl
  refine hdisable.trans (.of_eq ?_)
  unfold State.writeSource
  dsimp only
  generalize (if (s.cfg i).enabled && !new.enabled then s.disableSource i else s) = t
  rw [triggerIf_busPart]
  split
  · rw [enableSource_busPart, setCfg_busPart]
  · rfl

theorem applyWrite_busKept {s t : State} {p : Port} {f : Frame} (ht : s.applyWrite p f = some t) : BusKept s t := by
  unfold State.applyWrite at ht
  dsimp only at ht
  split at ht
  · obtain ⟨i, -, ht⟩ := Option.bind_eq_some_iff.mp ht
    obtain ⟨new, -, rfl⟩ := Option.map_eq_some_iff.mp ht
    exact writeSource_busKept s i new
  · obtain ⟨new, -, rfl⟩ := Option.map_eq_some_iff.mp ht
    exact .of_eq rfl
  · obtain ⟨new, -, rfl⟩ := Option.map_eq_some_iff.mp ht
    unfold State.writeRank
    split <;> exact .of_eq rfl
  · obtain ⟨q, -, ht⟩ := Option.bind_eq_some_iff.mp ht
    obtain ⟨new, -, rfl⟩ := Option.map_eq_some_iff.mp ht
    exact writePort_busKept s p q new
  · obtain ⟨new, -, rfl⟩ := Option.map_eq_some_iff.mp ht
    exact .of_eq rfl
  · cases ht

theorem decideWrite_busKept (s : State) (p : Port) (f : Frame) : BusKept s (s.decideWrite p f) := by
  unfold State.decideWrite
  dsimp only
  split
  · exact .of_eq rfl
  · split
    · exact .of_eq rfl
    · split
      · exact .of_eq rfl
      · rename_i t ht
        refine (applyWrite_busKept ht).trans (.of_eq ?_)
        unfold State.respondIfOn
        split <;> rfl

theorem execWrite_busStep (s : State) (p : Port) (row : Frame → Bool) : BusStep s (s.execWrite p row) :=
  execKind_busStep fun f t _ => .kept (decideWrite_busKept t p f)

theorem completeStore_busPart (s : State) (t : Tables) (dest : Option Port) (content : List Byte)
    (check : BitVec 16) : (s.completeStore t dest content check).busPart = s.busPart := by
  unfold State.completeStore
  dsimp only
  split <;> rfl

/-! ### The receivers, the transmitters and the timers -/

theorem takeChar_busPart (s : State) (p : Port) (chars : List Byte) (c : LinkChar) :
    (s.takeChar p chars c).busPart = s.busPart := by
  unfold State.takeChar State.takeByte State.offerFrame
  dsimp only
  repeat' split
  all_goals rfl

theorem frameEnded_busPart (s : State) (p : Port) (f : TxFrame) : (s.frameEnded p f).busPart = s.busPart := by
  unfold State.frameEnded
  dsimp only
  split
  · exact modNotice_busPart s _ _
  · rfl
  · rfl

theorem passStep_busPart (s : State) : s.passStep.busPart = s.busPart := by
  unfold State.passStep
  split
  · rfl
  · dsimp only
    split <;> simp

theorem expireOffer_busPart (s : State) (p : Port) (i : Src) (n : Notice) :
    (s.expireOffer p i n).busPart = s.busPart := by
  unfold State.expireOffer State.dropOffer
  simp

theorem expireService_busPart (s : State) (p : Port) (i : Src) (n : Notice) :
    (s.expireService p i n).busPart = s.busPart := by
  unfold State.expireService State.revokeClaim
  simp

/-! ### Start-up and CLEAR_ALL (chapter 11) -/

/-- A baseline scan ends in a choice of the arbiter (R186). -/
theorem beginScan_busStep {s t : State} (h : RunCarried s.bus t.bus) : BusStep s t.beginScan := by
  have hquery : ((List.finRange 8).foldl (fun (u : State) k => u.lineQuery k) { t with stage := .scanning }).busPart =
      (Stage.scanning, t.bus) := foldl_busPart (fun u k => lineQuery_busPart u k) _ _
  unfold State.beginScan
  dsimp only
  generalize (List.finRange 8).foldl (fun (u : State) k => u.lineQuery k) { t with stage := .scanning } = u at hquery
  obtain ⟨hst, hb⟩ := Prod.mk.inj hquery
  refine .chosen (u.setBus { u.bus with cursor := 1, attempts := 0 }) (.inl ?_) ?_ rfl
  · rw [State.stage_setBus, hst]
    simp
  · rw [hb]
    exact h

theorem endAllNotices_busPart (s : State) : s.endAllNotices.busPart = s.busPart := by
  unfold State.endAllNotices
  dsimp only
  rw [setPass_busPart, foldl_busPart (by simp)]
  rfl

/-- CLEAR_ALL marks a transaction in flight and leaves the bid-failure run (R27, R45). -/
theorem cancelBusWork_runCarried (s : State) : RunCarried s.bus s.cancelBusWork.bus := by
  have hcancel (t : State) (e : PollEntry) : (t.cancelPoll e).bus = t.bus :=
    (offEngines_fields (cancelPoll_offEngines t e)).2.2.2.2.1
  have hfold : (s.bus.pollQueue.foldl (fun t e => t.cancelPoll e) s).bus = s.bus :=
    foldl_keeps State.bus _ hcancel _ s
  unfold State.cancelBusWork
  dsimp only
  generalize s.bus.pollQueue.foldl (fun t e => t.cancelPoll e) s = t at hfold
  split
  · rename_i g hst
    split
    · exact .inl ⟨by simp [hcancel, hfold], by simp [hcancel, hfold], by simp [FieldBus.bidding]⟩
    · exact .inl ⟨by simp [hfold], by simp [hfold], by simp [FieldBus.bidding, hst]⟩
  · exact .inl ⟨by simp [hfold], by simp [hfold], by simp [FieldBus.bidding, hfold]⟩

theorem acceptClearAll_busStep (s : State) (p : Port) (f : Frame) : BusStep s (s.acceptClearAll p f) := by
  have hb : s.endAllNotices.clearSources.bus = s.bus := (busPart_fields (endAllNotices_busPart s)).2
  have hrun := cancelBusWork_runCarried s.endAllNotices.clearSources
  rw [hb] at hrun
  exact beginScan_busStep (t := s.endAllNotices.clearSources.cancelBusWork.respond p (f.answer .ok [])) hrun

theorem execBootLoadComplete_busStep {s t : State} {fatLow : Bool} (ht : execBootLoadComplete fatLow s = .next t) :
    BusStep s t := by
  cases ht
  split
  · have hload : s.loadTables.busPart = s.busPart := by
      unfold State.loadTables
      split <;> rfl
    refine BusStep.congr (beginScan_busStep (s := s) ?_) rfl (settle_busPart _)
    have hb := (busPart_fields hload).2
    generalize s.loadTables = u at hb
    have hrun : u.bus.bidRun = s.bus.bidRun := by rw [hb]
    have hflag : u.bus.suspended = s.bus.suspended := by rw [hb]
    have hbid : u.bus.bidding → s.bus.bidding := by rw [hb]; exact id
    exact .inl ⟨hrun, hflag, hbid⟩
  · exact .of_eq rfl

/-! ### The ends of transactions -/

theorem moveCursor_keeps (s : State) (o : BusOutcome) : (s.moveCursor o).stage = s.stage ∧
    (s.moveCursor o).bus = { s.bus with
      cursor := (s.moveCursor o).bus.cursor, attempts := (s.moveCursor o).bus.attempts } := by
  unfold State.moveCursor
  repeat' split
  all_goals exact ⟨rfl, rfl⟩

/-- A failed clear joins the clear list again at most (R37). -/
theorem clearFailed_listsChanged (s : State) (e : ClearEntry) : ListsChanged s (s.clearFailed e) := by
  obtain ⟨hst, hb⟩ := busPart_fields (failedExchange_busPart s e.src)
  unfold State.clearFailed
  dsimp only
  split
  · exact ⟨hst, by rw [← hb]; rfl⟩
  · split
    · exact .of_eq (by rw [clearCompletion_busPart, failedExchange_busPart])
    · exact .of_eq (failedExchange_busPart s e.src)

theorem clearEffect_listsChanged (s : State) (e : ClearEntry) (o : BusOutcome) :
    ListsChanged s (s.clearEffect e o) := by
  unfold State.clearEffect
  split
  · split
    · exact .of_eq ((clearCompletion_busPart _ _ _).trans rfl)
    · exact .of_eq rfl
  · exact clearFailed_listsChanged s e
  · exact clearFailed_listsChanged s e

/-- A transaction that is no bid round, or whose outcome leaves the bid-failure run, ends (R21). -/
theorem ListsChanged.ended {s t : State} {g : InFlight} {kind : PrevKind} {ack : AckSlot}
    (h : ListsChanged (s.endTransaction g kind ack) t) (hwas : s.bus.state = .inFlight g) : BusStep s t := by
  obtain ⟨hst, hb⟩ := h
  exact .ended g hwas (by rw [hb]; rfl) hst (by rw [hb]; rfl) (by rw [hb]; rfl)

theorem execPollEnd_busStep {s t : State} {reply : Option FieldReply} (ht : execPollEnd reply s = .next t) :
    BusStep s t := by
  cases ht
  split
  · rename_i g hwas
    split
    · refine ListsChanged.ended (kind := .work) (ack := (busOutcome g.window reply).ack) (.of_eq ?_) hwas
      rw [settle_busPart, foldl_busPart (fun _ _ => respond_busPart _ _ _), handOutcome_busPart]
    · exact .of_eq rfl
  · exact .of_eq rfl

theorem execClearEnd_busStep {s t : State} {reply : Option FieldReply} (ht : execClearEnd reply s = .next t) :
    BusStep s t := by
  cases ht
  split
  · rename_i g hwas
    split
    · refine BusStep.congr ?_ rfl (settle_busPart _)
      refine ListsChanged.ended (kind := .work) (ack := (busOutcome g.window reply).ack) ?_ hwas
      split
      · exact .of_eq rfl
      · split
        · exact .of_eq (handOutcome_busPart _ _ _ _)
        · exact clearEffect_listsChanged _ _ _
    · exact .of_eq rfl
  · exact .of_eq rfl

theorem execScanStepEnd_busStep {s t : State} {reply : Option FieldReply} (ht : execScanStepEnd reply s = .next t) :
    BusStep s t := by
  cases ht
  split
  · rename_i g hwas
    split
    · refine BusStep.congr ?_ rfl (settle_busPart _)
      have hhand := handOutcome_busPart (s.endTransaction g .work (busOutcome g.window reply).ack) g
      generalize (busOutcome g.window reply) = o at hhand ⊢
      rename_i i _
      obtain ⟨hst, hb⟩ := busPart_fields (hhand i o)
      generalize (s.endTransaction g .work o.ack).handOutcome g i o = u at hst hb
      obtain ⟨hmst, hmb⟩ := moveCursor_keeps u o
      exact .ended g hwas (by rw [hmb, hb]; rfl) (hmst.trans hst) (by rw [hmb, hb]; rfl) (by rw [hmb, hb]; rfl)
    · exact .of_eq rfl
  · exact .of_eq rfl

/-- A failing bid round (R27). -/
theorem bidFailed_busStep {s u : State} {g : InFlight} {ack : AckSlot} (hwas : s.bus.state = .inFlight g)
    (hw : g.work = .bid) (hu : u.busPart = (s.endTransaction g .bid ack).busPart) : BusStep s u.bidFailed := by
  obtain ⟨hst, hb⟩ := busPart_fields hu
  have hrun : u.bus.bidRun = s.bus.bidRun := by rw [hb]; rfl
  have hflag : u.bus.suspended = s.bus.suspended := by rw [hb]; rfl
  refine .failed g hwas hw ?_ hst ?_ ?_
  · show u.bus.state = _
    rw [hb]
    rfl
  · rw [← hrun]
    rfl
  · rw [← hflag]
    rfl

theorem execBidRoundEnd_busStep {s t : State} {address : BitVec 6} {report : BitVec 16} {check : BitVec 8}
    (ht : execBidRoundEnd address report check s = .next t) : BusStep s t := by
  cases ht
  split
  · rename_i g hwas
    split
    · rename_i hw
      refine BusStep.congr ?_ rfl (settle_busPart _)
      generalize (bidOutcome address report check).ack = ack
      cases bidOutcome address report check with
      | won i r =>
        obtain ⟨hst, hb⟩ := busPart_fields (handOutcome_busPart (s.endTransaction g .bid ack) g i (.replied r))
        have hgap := congrArg FieldBus.state hb
        have hflag := congrArg FieldBus.suspended hb
        exact .won g hwas hw hgap hst rfl hflag
      | garbled i => exact bidFailed_busStep hwas hw (handOutcome_busPart _ _ _ _)
      | stray => exact bidFailed_busStep hwas hw rfl
      | empty => exact bidFailed_busStep hwas hw rfl
    · exact .of_eq rfl
  · exact .of_eq rfl

/-! ### The commands -/

/-- What each command does to the stage and the bus. -/
theorem exec_busStep {c : Instr} {s t : State} (ht : exec c s = .next t) : BusStep s t := by
  cases c with
  | fullReset => cases ht; exact .reset rfl rfl rfl rfl
  | bootLoadComplete fatLow => exact execBootLoadComplete_busStep ht
  | bidRoundEnd address report check => exact execBidRoundEnd_busStep ht
  | pollEnd reply => exact execPollEnd_busStep ht
  | clearEnd reply => exact execClearEnd_busStep ht
  | scanStepEnd reply => exact execScanStepEnd_busStep ht
  | fatLow =>
    cases ht
    split
    · exact .of_eq rfl
    · rename_i hon
      refine .chosen (s.sampleFat true) (.inl hon) (.inl ⟨rfl, rfl, id⟩) (settle_busPart _)
  | gapEnd fatLow =>
    cases ht
    split
    · refine .chosen (s.setBus { s.bus with state := .idle, fatLow := fatLow }) (.inr rfl) (.inl ⟨rfl, rfl, ?_⟩)
        (settle_busPart _)
      rintro ⟨g, hg, -⟩
      cases hg
    · exact .of_eq rfl
  | claim p => cases ht; exact execKind_busStep fun f t hon => decideClaim_busStep hon p f
  | close p => cases ht; exact execKind_busStep fun f t hon => decideClose_busStep hon p f
  | poll p => cases ht; exact execKind_busStep fun f t hon => decidePoll_busStep hon p f
  | resumeField p fatLow => cases ht; exact execKind_busStep fun f t hon => decideResumeField_busStep hon p fatLow f
  | clearAll p =>
    cases ht
    refine execKind_busStep fun f t _ => ?_
    split
    · exact acceptClearAll_busStep t p f
    · exact .of_eq rfl
  | detach p => cases ht; exact execKind_busStep fun f t _ => .kept (decideDetach_busKept t p f)
  | linkBreak p =>
    cases ht
    split
    · exact (BusStep.kept (breakPort_busKept s p)).congr rfl (settle_busPart _)
    · exact .of_eq rfl
  | sourceDisable p => cases ht; exact execWrite_busStep s p _
  | sourceEnable p => cases ht; exact execWrite_busStep s p _
  | writeSourceEntry p => cases ht; exact execWrite_busStep s p _
  | writeClassEntry p => cases ht; exact execWrite_busStep s p _
  | writeOrder p => cases ht; exact execWrite_busStep s p _
  | portEnable p => cases ht; exact execWrite_busStep s p _
  | portDisable p => cases ht; exact execWrite_busStep s p _
  | backlogLimitRaise p => cases ht; exact execWrite_busStep s p _
  | backlogLimitLower p => cases ht; exact execWrite_busStep s p _
  | linkRateWrite p => cases ht; exact execWrite_busStep s p _
  | writePortEntry p => cases ht; exact execWrite_busStep s p _
  | writeDeviceEntry p => cases ht; exact execWrite_busStep s p _
  | attach p => cases ht; exact execKind_busStep_of_eq fun f t => decideAttach_busPart t p f
  | hold p => cases ht; exact execKind_busStep_of_eq fun f t => decideHold_busPart t p f
  | resume p => cases ht; exact execKind_busStep_of_eq fun f t => decideResume_busPart t p f
  | release p => cases ht; exact execKind_busStep_of_eq fun f t => decideRelease_busPart t p f
  | sweep p => cases ht; exact execKind_busStep_of_eq fun f t => triggerPass_busPart t
  | readEntry p => cases ht; exact execKind_busStep_of_eq fun f t => rfl
  | takeRight p => cases ht; exact execKind_busStep_of_eq fun f t => decideTakeRight_busPart t p f
  | giveRight p => cases ht; exact execKind_busStep_of_eq fun f t => decideGiveRight_busPart t p f
  | store p => cases ht; exact execKind_busStep_of_eq fun f t => decideStore_busPart t p f
  | status p => cases ht; exact execKind_busStep_of_eq fun f t => rfl
  | ackStatus p => cases ht; exact execKind_busStep_of_eq fun f t => rfl
  | unknownRequest p => cases ht; exact execHead_busStep fun f t _ => .of_eq rfl
  | lineSample levels =>
    cases ht
    refine .of_eq ?_
    rw [settle_busPart, foldl_busPart lineRose_busPart]
    rfl
  | offerExpiry p i =>
    cases ht
    refine .of_eq ?_
    split
    · rfl
    · split
      · rw [settle_busPart, expireOffer_busPart]
      · rfl
  | serviceExpiry i =>
    cases ht
    refine .of_eq ?_
    split
    · rfl
    · split
      · split
        · rw [settle_busPart, expireService_busPart]
        · rfl
      · rfl
      · rfl
  | linkCharacter p x =>
    cases ht
    refine .of_eq ?_
    repeat' split
    all_goals first
      | rfl
      | exact takeChar_busPart _ _ _ _
  | frameIdleTimeout p =>
    cases ht
    refine .of_eq ?_
    repeat' split
    all_goals rfl
  | huntEnd p => cases ht; refine .of_eq ?_; split <;> rfl
  | lineReturnToMark p =>
    cases ht
    refine .of_eq ?_
    repeat' split
    all_goals rfl
  | frameSent p =>
    cases ht
    refine .of_eq ?_
    split
    · rfl
    · rw [settle_busPart, frameEnded_busPart]
    · rw [settle_busPart, setEng_busPart]
  | passWalk =>
    cases ht
    refine .of_eq ?_
    split
    · rfl
    · rw [settle_busPart, passStep_busPart]
  | storeComplete content check =>
    cases ht
    refine .of_eq ?_
    split
    · rfl
    · rw [settle_busPart, completeStore_busPart]

theorem step_busStep {s t : State} (ht : step s = .next t) : BusStep s t := by
  unfold step at ht
  split at ht
  · cases ht
    exact .of_eq rfl
  · exact (exec_busStep ht).congr rfl rfl

/-- Settles O53: what a step does to the stage and the bus is one of the cases of `BusStep`, and each keeps the three
invariants. -/
theorem stepKeepsTheFieldBusConsistent : Obligations.StepKeepsTheFieldBusConsistent := by
  unfold Obligations.StepKeepsTheFieldBusConsistent
  exact ⟨fun s t hs ht => (step_busStep ht).bidRunOk hs, fun s t hs ht => (step_busStep ht).neverIdles hs,
    fun s t hs ht => (step_busStep ht).restsInBooting hs⟩

end Sys2Proof.Machine

/-! SUPPORT. New conditions, reports and failed exchanges in whatever event they come, and what the end of an event
keeps. -/

namespace Sys2Proof.Machine

/-! ### What the end of an event keeps -/

theorem settle_sources (s : State) : s.settle.sources = s.sources := (offLinks_fields (settle_offLinks s)).2.2.1

theorem settle_src (s : State) (i : Src) : s.settle.src i = s.src i := by simp only [State.src, settle_sources]

theorem settle_bus (s : State) : s.settle.bus = s.bus := (busPart_fields (settle_busPart s)).2

/-- An event that began with every transmitter at rest and has changed no port engine makes no response. -/
theorem linksKept_of_engines {s u : State} (hs : Settled s) (he : u.engines = s.engines) : LinksKept s u.settle := by
  have heng (p : Port) : u.eng p = s.eng p := by simp only [State.eng, he]
  have hkept : LinksKept u u.settle := settle_linksKept fun p hidle => by
    rw [heng] at hidle ⊢
    obtain ⟨hrate, hlists⟩ := hs.quiet p hidle
    exact ⟨hrate, fun hon => (hlists hon).1⟩
  intro p
  rw [← heng]
  exact hkept p

/-! ### What stands before and after an outcome is handed to the source unit -/

/-- As `Alike`, but codes may have latched between s and t. -/
structure AlikeLatching (s t : State) : Prop where
  stage : t.stage = s.stage
  config : t.config = s.config
  sources : t.sources = s.sources
  notices : t.notices = s.notices
  delivery : t.delivery = s.delivery
  latched : LatchedKept s t
  ports : ∀ p, (t.eng p).tx = (s.eng p).tx ∧ (t.eng p).state = (s.eng p).state

theorem Alike.latching {s t : State} (h : Alike s t) : AlikeLatching s t :=
  ⟨h.stage, h.config, h.sources, h.notices, h.delivery, .of_attention h.attention, h.ports⟩

theorem AlikeLatching.trans {s t u : State} (h : AlikeLatching s t) (k : AlikeLatching t u) : AlikeLatching s u :=
  ⟨k.stage.trans h.stage, k.config.trans h.config, k.sources.trans h.sources, k.notices.trans h.notices,
    k.delivery.trans h.delivery, h.latched.trans k.latched,
    fun p => ⟨(k.ports p).1.trans (h.ports p).1, (k.ports p).2.trans (h.ports p).2⟩⟩

theorem AlikeLatching.queue {s t : State} (h : AlikeLatching s t) (p : Port) : t.queue p = s.queue p := by
  simp only [State.queue, h.delivery]

theorem AlikeLatching.notice {s t : State} (h : AlikeLatching s t) (i : Src) : t.notice i = s.notice i := by
  simp only [State.notice, h.notices]

theorem AlikeLatching.src {s t : State} (h : AlikeLatching s t) (i : Src) : t.src i = s.src i := by
  simp only [State.src, h.sources]

theorem AlikeLatching.sourceStep {s t : State} (h : AlikeLatching s t) (i : Src) : SourceStep s t i where
  stage := h.stage
  config := h.config
  tx p := (h.ports p).1
  portState p := (h.ports p).2
  notices j _ := by simp only [State.notice, h.notices]
  sources j _ := by simp only [State.src, h.sources]
  order := by rw [h.notices]
  queue p := by rw [h.queue p]
  stranded j _ := by simp only [State.stranded, h.notices]
  latched := h.latched

theorem AlikeLatching.noticeStays {s t : State} (h : AlikeLatching s t) (i : Src) : NoticeStays s t i :=
  .of_eq h.sources h.notices h.queue i

/-- Between s and v an outcome for source i has been noted and its conditions not yet applied: notices and queues stand,
and of the source its state, its arrears and its opening count. -/
structure Noted (s v : State) (i : Src) : Prop where
  step : SourceStep s v i
  notices : v.notices = s.notices
  delivery : v.delivery = s.delivery
  state : (v.src i).state = (s.src i).state
  arrears : (v.src i).arrears = (s.src i).arrears
  openings : (v.src i).openings = (s.src i).openings

theorem Noted.notice {s v : State} {i : Src} (h : Noted s v i) (j : Src) : v.notice j = s.notice j := by
  simp only [State.notice, h.notices]

theorem Noted.queue {s v : State} {i : Src} (h : Noted s v i) (p : Port) : v.queue p = s.queue p := by
  simp only [State.queue, h.delivery]

theorem Alike.noted {s v : State} (h : Alike s v) (i : Src) : Noted s v i :=
  ⟨h.sourceStep i, h.notices, h.delivery, by rw [h.src], by rw [h.src], by rw [h.src]⟩

theorem Noted.noteReport {s v : State} {i : Src} (h : Noted s v i) (report : CodeSet) :
    Noted s (v.noteReport i report) i :=
  ⟨h.step.trans (noteReport_sourceStep v i report), h.notices, h.delivery, by rw [noteReport_src, h.state],
    by rw [noteReport_src, h.arrears], by rw [noteReport_src, h.openings]⟩

theorem Noted.losesSource {s v : State} {i : Src} (h : Noted s v i) : Noted s (v.losesSource i) i :=
  ⟨h.step.trans (losesSource_sourceStep v i), h.notices, h.delivery, by rw [losesSource_src, h.state],
    by rw [losesSource_src, h.arrears], by rw [losesSource_src, h.openings]⟩

/-- The source i of an event: u is the event before its end, and no port has lost an offer in it. -/
theorem SourceStep.stands_at_end {s u : State} {i : Src} (h : SourceStep s u i) (hs : Settled s)
    (ho : ∀ p, s.offerCount p ≤ u.offerCount p) (hd : u.delivery = s.delivery) :
    u.settle.notices = u.notices ∧ u.settle.delivery = s.delivery := by
  obtain ⟨h1, h2⟩ := h.settle_stands hs ho fun p => by simp only [State.queue, hd]
  exact ⟨h1, h2.trans hd⟩

/-- An event that began with every transmitter at rest, and changed neither a source nor a notice. -/
theorem AlikeLatching.at_end {s u : State} (h : AlikeLatching s u) (hs : Settled s) (i : Src) :
    TouchesOnly s u.settle i ∧ u.settle.sources = s.sources ∧ u.settle.notices = s.notices ∧
      u.settle.delivery = s.delivery := by
  have hoffers : ∀ p, s.offerCount p ≤ u.offerCount p := fun p => by
    simp only [State.offerCount, h.notice, le_refl]
  obtain ⟨hnotices, hdelivery⟩ := (h.sourceStep i).stands_at_end hs hoffers h.delivery
  exact ⟨(h.sourceStep i).touchesOnly hs hoffers, (settle_sources u).trans h.sources, hnotices.trans h.notices,
    hdelivery⟩

/-! ### New conditions (R11 to R13) -/

/-- The conditions `new` have been applied between s and t by the state of source i and by that of its notice. -/
structure ConditionsApplied (s t : State) (i : Src) (new : CodeSet) : Prop where
  touches : TouchesOnly s t i
  opens : (s.src i).state = .quiet → new ≠ 0 → Opened s t i new ∧ (t.src i).arrears = (s.src i).arrears
  rests : (s.src i).state = .quiet → new = 0 →
    (t.src i).state = .quiet ∧ t.notices = s.notices ∧ t.delivery = s.delivery
  merges : ∀ n, (s.src i).state = .opened → s.notice i = some n → Notice.merges n →
    t.notice i = some { n with conds := n.conds ||| new } ∧ (t.src i).arrears = (s.src i).arrears ∧
      t.delivery = s.delivery
  waits : ∀ n, (s.src i).state = .opened → s.notice i = some n → ¬ Notice.merges n →
    t.notices = s.notices ∧ t.delivery = s.delivery ∧
      (t.src i).arrears = (s.src i).arrears ||| (new &&& ~~~n.conds)
  closing : (s.src i).state = .closing → (t.src i).state = .closing ∧ t.notices = s.notices ∧
    t.delivery = s.delivery ∧ (t.src i).arrears = (s.src i).arrears ||| new

theorem addArrears_src (s : State) (i : Src) (codes : CodeSet) :
    (s.addArrears i codes).src i = { s.src i with arrears := (s.src i).arrears ||| codes } := by
  unfold State.addArrears
  rw [State.src_setSrc, if_pos rfl]

/-- Conditions are applied in v, in an event that began in s with every transmitter at rest; u is what the rest of the
event makes of it. -/
theorem applyConditions_settled {s v u : State} {i : Src} {new : CodeSet} (hs : Settled s) (ho : SourcesOk s)
    (hv : Noted s v i) (hu : AlikeLatching (v.applyConditions i new) u) : ConditionsApplied s u.settle i new := by
  have hstep : SourceStep s u i := (hv.step.trans (applyConditions_sourceStep v i new)).trans (hu.sourceStep i)
  have hquiet : (v.src i).state = .quiet → v.notice i = none := fun hq => by
    rw [hv.notice]
    exact ho.notice_none (by rw [← hv.state, hq]; simp)
  have hoffers : ∀ p, s.offerCount p ≤ u.offerCount p := hstep.offerCount_le fun n p hn hp => by
    obtain ⟨conds, hm⟩ := applyConditions_record hquiet new ((hv.notice i).trans hn)
    exact ⟨_, (hu.notice i).trans hm, hp⟩
  have hstands (hd : (v.applyConditions i new).delivery = v.delivery) :
      u.settle.notices = (v.applyConditions i new).notices ∧ u.settle.delivery = s.delivery := by
    obtain ⟨h1, h2⟩ := hstep.stands_at_end hs hoffers (hu.delivery.trans (hd.trans hv.delivery))
    exact ⟨h1.trans hu.notices, h2⟩
  have hsrc : u.settle.src i = (v.applyConditions i new).src i := (settle_src u i).trans (hu.src i)
  refine ⟨hstep.touchesOnly hs hoffers, fun hq hne => ?_, fun hq h0 => ?_, fun n hop hn hm => ?_,
    fun n hop hn hm => ?_, fun hc => ?_⟩
  · have hopen := applyConditions_quiet (new := new) (hv.state.trans hq)
    rw [if_neg hne] at hopen
    have hstays : NoticeStays (v.openNotice i new) u.settle i := by
      rw [← hopen]
      exact (hu.noticeStays i).trans (settle_noticeStays u i)
    refine ⟨opened_of_openNotice (ho.notice_none (by rw [hq]; simp)) hv.step.config hv.step.portState hv.openings
      hv.step.order hv.queue hstays, ?_⟩
    rw [hstays.source, openNotice_src, hv.arrears]
  · have hrest := applyConditions_quiet (new := new) (hv.state.trans hq)
    rw [if_pos h0] at hrest
    obtain ⟨h1, h2⟩ := hstands (by rw [hrest])
    rw [hrest] at h1 hsrc
    exact ⟨by rw [hsrc, hv.state, hq], h1.trans hv.notices, h2⟩
  · have hmerge := applyConditions_merge (new := new) (hv.state.trans hop) ((hv.notice i).trans hn) hm
    obtain ⟨h1, h2⟩ := hstands (by rw [hmerge]; rfl)
    rw [hmerge] at h1 hsrc
    refine ⟨?_, by rw [hsrc, State.src_setNotice, hv.arrears], h2⟩
    simp only [State.notice, h1]
    exact (State.notice_setNotice _ _ _ _).trans (if_pos rfl)
  · have hwait := applyConditions_wait (new := new) (hv.state.trans hop) ((hv.notice i).trans hn) hm
    obtain ⟨h1, h2⟩ := hstands (by rw [hwait]; rfl)
    rw [hwait] at h1 hsrc
    rw [addArrears_src] at hsrc
    refine ⟨h1.trans hv.notices, h2, ?_⟩
    rw [hsrc]
    exact congrArg (· ||| CodeSet.minus new n.conds) hv.arrears
  · have hclose := applyConditions_closing (new := new) (hv.state.trans hc)
    obtain ⟨h1, h2⟩ := hstands (by rw [hclose]; rfl)
    rw [hclose] at h1 hsrc
    rw [addArrears_src] at hsrc
    refine ⟨by rw [hsrc, ← hc, ← hv.state], h1.trans hv.notices, h2, ?_⟩
    rw [hsrc]
    exact congrArg (· ||| new) hv.arrears

/-! ### Reports (R10) -/

theorem reportArrival_src {s : State} {i : Src} (h : (s.src i).state ≠ .disabled) (report : CodeSet) :
    ((s.reportArrival i report).src i).reported = report ∧
      ((s.reportArrival i report).src i).reach = .reachable ∧
      ((s.reportArrival i report).src i).failures = 0 ∧
      ((s.reportArrival i report).src i).code15 = (s.src i).code15 := by
  rw [reportArrival_of_on h]
  obtain ⟨hrep, hreach, hfail, hcode⟩ := applyConditions_src (s.noteReport i report) i (s.newConds i report)
  rw [hrep, hreach, hfail, hcode, noteReport_src]
  exact ⟨rfl, rfl, rfl, rfl⟩

/-- A report of a source that is not DISABLED, in an event that began with every transmitter at rest: v is the state in
which it arrives, and u what the rest of the event makes of it. -/
theorem reportArrival_on_settled {s v u : State} {i : Src} {report : CodeSet} (hs : Settled s) (ho : SourcesOk s)
    (hv : Noted s v i) (hrt : v.src i = s.src i) (hon : (s.src i).state ≠ .disabled)
    (hu : AlikeLatching (v.reportArrival i report) u) : ReportArrives s u.settle i report := by
  have hvon : (v.src i).state ≠ .disabled := by rwa [hrt]
  have hnoted : u.settle.src i = (v.reportArrival i report).src i := (settle_src u i).trans (hu.src i)
  have hconds : v.newConds i report = s.newConds i report := by
    have hcfg : v.cfg i = s.cfg i := by simp only [State.cfg, hv.step.config]
    simp only [State.newConds, hcfg, hrt]
  have happly := hu
  rw [reportArrival_of_on hvon, hconds] at happly
  have h := applyConditions_settled hs ho (hv.noteReport report) happly
  obtain ⟨hrep, hreach, hfail, hcode⟩ := reportArrival_src hvon report
  rw [hrt] at hcode
  exact ⟨h.touches, fun hd => absurd hd hon,
    fun _ => ⟨by rw [hnoted, hrep], by rw [hnoted, hreach], by rw [hnoted, hfail], by rw [hnoted, hcode]⟩,
    h.opens, h.rests, h.merges, h.waits, h.closing⟩

theorem reportArrival_off {s : State} {i : Src} (h : (s.src i).state = .disabled) (report : CodeSet) :
    s.reportArrival i report = s := if_pos h

/-- A report of source i in an event that began with every transmitter at rest (R10 to R13). -/
theorem reportArrival_settled {s v u : State} {i : Src} {report : CodeSet} (hs : Settled s) (ho : SourcesOk s)
    (hv : Alike s v) (hu : AlikeLatching (v.reportArrival i report) u) : ReportArrives s u.settle i report := by
  by_cases hd : (s.src i).state = .disabled
  · rw [reportArrival_off (by rwa [hv.src])] at hu
    obtain ⟨htouches, hstands⟩ := (hv.latching.trans hu).at_end hs i
    refine ⟨htouches, fun _ => hstands, ?_, ?_, ?_, ?_, ?_, ?_⟩
    all_goals simp [hd]
  · exact reportArrival_on_settled hs ho (hv.noted i) (hv.src i) hd hu

/-! ### Failed exchanges (R16, R17) -/

theorem failedExchange_failures {s : State} {i : Src} (hd : (s.src i).state ≠ .disabled)
    (h : (s.src i).failures < 3) : ((s.failedExchange i).src i).failures = (s.src i).failures + 1 := by
  by_cases h2 : (s.src i).failures = 2
  · rw [failedExchange_third hd h2, (applyConditions_src _ i code15Set).2.2.1, losesSource_src, h2]
  · rw [failedExchange_counted hd (by omega), State.src_setSrc, if_pos rfl]

/-- As `failedExchange_settled`, where the rest of the event may latch codes of its own. -/
theorem failedExchange_latching {s v u : State} {i : Src} (hs : Settled s) (ho : SourcesOk s) (hv : Alike s v)
    (hu : AlikeLatching (v.failedExchange i) u) : FailedExchange s u.settle i := by
  have hstep : SourceStep s u i :=
    ((hv.sourceStep i).trans (failedExchange_sourceStep v i)).trans (hu.sourceStep i)
  have hquiet : (v.src i).state = .quiet → v.notice i = none := fun hq => by
    rw [hv.notice]
    exact ho.notice_none (by rw [← hv.src, hq]; simp)
  have hoffers : ∀ p, s.offerCount p ≤ u.offerCount p := hstep.offerCount_le fun n p hn hp => by
    obtain ⟨conds, hm⟩ := failedExchange_record hquiet ((hv.notice i).trans hn)
    exact ⟨_, (hu.notice i).trans hm, hp⟩
  have hsrc : u.settle.src i = (v.failedExchange i).src i := (settle_src u i).trans (hu.src i)
  have hlost : (v.losesSource i).src i = { s.src i with failures := 3, reach := .unreachable, code15 := true } := by
    rw [losesSource_src, hv.src]
  have hthird (hd : (s.src i).state ≠ .disabled) (h2 : (s.src i).failures = 2) :
      v.failedExchange i = (v.losesSource i).applyConditions i code15Set :=
    failedExchange_third (by rwa [hv.src]) (by rwa [hv.src])
  have happlied (hd : (s.src i).state ≠ .disabled) (h2 : (s.src i).failures = 2) :
      ConditionsApplied s u.settle i code15Set := by
    refine applyConditions_settled hs ho (hv.noted i).losesSource ?_
    rwa [← hthird hd h2]
  refine ⟨hstep.touchesOnly hs hoffers, fun h => ?_, fun hd h2 => ?_, fun hd h2 => ?_, fun hd h2 hen hno p => ?_,
    fun hq h2 => ((happlied (by simp [hq]) h2).opens hq (by decide)).1,
    fun n hop h2 hn hm => ((happlied (by simp [hop]) h2).merges n hop hn hm).1, fun n hop h2 hn hm => ?_,
    fun hc h2 => ?_⟩
  · have hkept : v.failedExchange i = v := failedExchange_kept (by rwa [hv.src])
    rw [hkept] at hu
    obtain ⟨h1, h2⟩ := hstep.stands_at_end hs hoffers (hu.delivery.trans hv.delivery)
    exact ⟨(settle_sources u).trans (hu.sources.trans hv.sources), h1.trans (hu.notices.trans hv.notices), h2⟩
  · have hcounted := failedExchange_counted (s := v) (i := i) (by rwa [hv.src]) (by rwa [hv.src])
    rw [hcounted] at hu hsrc
    obtain ⟨h1, h2⟩ := hstep.stands_at_end hs hoffers (hu.delivery.trans hv.delivery)
    rw [State.src_setSrc, if_pos rfl, hv.src] at hsrc
    exact ⟨hsrc, h1.trans (hu.notices.trans hv.notices), h2⟩
  · obtain ⟨hrep, hreach, hfail, hcode⟩ := applyConditions_src (v.losesSource i) i code15Set
    rw [hsrc, hthird hd h2, hrep, hreach, hfail, hcode, hlost]
    exact ⟨rfl, rfl, rfl, rfl⟩
  · have hlatched := losesSource_latched (s := v) (i := i) (by rwa [hv.cfg])
      (by rw [← hno]; simp only [State.anyUnreachable, hv.cfg, hv.src]) p
    have hlater : LatchedKept (v.losesSource i) u.settle := by
      refine LatchedKept.trans ?_ (settle_latchedKept u)
      have := (applyConditions_sourceStep (v.losesSource i) i code15Set).latched
      rw [← hthird hd h2] at this
      exact this.trans hu.latched
    exact hlater.getLsbD hlatched
  · obtain ⟨h1, -, h3⟩ := (happlied (by simp [hop]) h2).waits n hop hn hm
    exact ⟨h1, h3⟩
  · obtain ⟨-, h2, -, h4⟩ := (happlied (by simp [hc]) h2).closing hc
    exact ⟨h2, h4⟩

end Sys2Proof.Machine

/-! The end of a bid round (O10, O12, O13). -/

namespace Sys2Proof.Machine

/-! ### The outcome of a bid round (R25, R26) -/

theorem isDirect_iff (i : Src) : i.isDirect = false ↔ i.num ≤ 48 := by
  unfold Src.isDirect Src.num
  rw [decide_eq_false_iff_not]
  omega

theorem ofNum_num (i : Src) : Src.ofNum i.num = some i := by
  unfold Src.ofNum
  rw [dif_pos (show 1 ≤ i.num ∧ i.num ≤ 56 by unfold Src.num; omega)]
  simp [Src.num]

theorem fieldSource_of_num {i : Src} {address : BitVec 6} (hi : i.isDirect = false) (ha : address.toNat = i.num) :
    fieldSource address = some i := by
  unfold fieldSource
  rw [ha, if_pos ((isDirect_iff i).mp hi), ofNum_num]

theorem fieldSource_none {address : BitVec 6} (h : address.toNat = 0 ∨ 49 ≤ address.toNat) :
    fieldSource address = none := by
  unfold fieldSource Src.ofNum
  split
  · rw [dif_neg (by omega)]
  · rfl

/-- An address of 1 to 48 is the number of a field source. -/
theorem exists_fieldSource {address : BitVec 6} (h1 : 1 ≤ address.toNat) (h2 : address.toNat ≤ 48) :
    ∃ i : Src, i.isDirect = false ∧ address.toNat = i.num :=
  ⟨⟨address.toNat - 1, by omega⟩, by rw [isDirect_iff]; unfold Src.num; dsimp only; omega,
    by unfold Src.num; dsimp only; omega⟩

theorem address_ne_63 {address : BitVec 6} (h : address.toNat ≤ 48) : address ≠ 63 := by
  rintro rfl
  exact absurd h (by decide)

theorem bidOutcome_won {i : Src} {address : BitVec 6} (hi : i.isDirect = false) (ha : address.toNat = i.num)
    (report : BitVec 16) : bidOutcome address report (fieldCheck report) = .won i (report &&& 0x7FFF) := by
  unfold bidOutcome
  rw [if_neg (address_ne_63 (ha ▸ (isDirect_iff i).mp hi)), fieldSource_of_num hi ha]
  exact if_pos rfl

theorem bidOutcome_garbled {i : Src} {address : BitVec 6} {report : BitVec 16} {check : BitVec 8}
    (hi : i.isDirect = false) (ha : address.toNat = i.num) (hc : check ≠ fieldCheck report) :
    bidOutcome address report check = .garbled i := by
  unfold bidOutcome
  rw [if_neg (address_ne_63 (ha ▸ (isDirect_iff i).mp hi)), fieldSource_of_num hi ha]
  exact if_neg (Ne.symm hc)

theorem bidOutcome_stray {address : BitVec 6} {report : BitVec 16} {check : BitVec 8} (h63 : address ≠ 63)
    (h : address.toNat = 0 ∨ 49 ≤ address.toNat) : bidOutcome address report check = .stray := by
  unfold bidOutcome
  rw [if_neg h63, fieldSource_none h]

theorem bidOutcome_empty (report : BitVec 16) (check : BitVec 8) : bidOutcome 63 report check = .empty := if_pos rfl

/-- A bid round that is not won: EMPTY, STRAY or GARBLED. -/
theorem bidOutcome_notWon {address : BitVec 6} {report : BitVec 16} {check : BitVec 8}
    (h : ¬ (1 ≤ address.toNat ∧ address.toNat ≤ 48 ∧ check = fieldCheck report)) :
    (address = 63 ∧ bidOutcome address report check = .empty) ∨
      (address ≠ 63 ∧ (address.toNat = 0 ∨ 49 ≤ address.toNat) ∧ bidOutcome address report check = .stray) ∨
      (address ≠ 63 ∧ ∃ i : Src, i.isDirect = false ∧ address.toNat = i.num ∧ check ≠ fieldCheck report ∧
        bidOutcome address report check = .garbled i) := by
  by_cases h63 : address = 63
  · subst h63
    exact .inl ⟨rfl, bidOutcome_empty report check⟩
  · by_cases hr : 1 ≤ address.toNat ∧ address.toNat ≤ 48
    · obtain ⟨i, hi, ha⟩ := exists_fieldSource hr.1 hr.2
      have hc : check ≠ fieldCheck report := fun hc => h ⟨hr.1, hr.2, hc⟩
      exact .inr (.inr ⟨h63, i, hi, ha, hc, bidOutcome_garbled hi ha hc⟩)
    · have hout : address.toNat = 0 ∨ 49 ≤ address.toNat := by omega
      exact .inr (.inl ⟨h63, hout, bidOutcome_stray h63 hout⟩)

/-- BID_ROUND_END of a bid round in flight. -/
theorem exec_bidRoundEnd {s : State} {g : InFlight} (hb : s.bus.state = .inFlight g) (hw : g.work = .bid)
    (address : BitVec 6) (report : BitVec 16) (check : BitVec 8) :
    exec (.bidRoundEnd address report check) s =
      .next ((s.endTransaction g .bid (bidOutcome address report check).ack).bidEffect g
        (bidOutcome address report check)).settle := by
  show execBidRoundEnd address report check s = _
  unfold execBidRoundEnd
  rw [hb]
  simp only [hw]

theorem handOutcome_replied {s : State} {t : InFlight} (h : t.afterClearAll = false) (i : Src) (r : CodeSet) :
    s.handOutcome t i (.replied r) = s.reportArrival i r := by
  unfold State.handOutcome
  simp [h]

/-- BID_ROUND_END of a round that is won (R26). -/
theorem exec_bidRoundEnd_won {s : State} {g : InFlight} {i : Src} {address : BitVec 6} {report : BitVec 16}
    (hb : s.bus.state = .inFlight g) (hw : g.work = .bid) (ha : g.afterClearAll = false) (hi : i.isDirect = false)
    (hn : address.toNat = i.num) : ∃ u, exec (.bidRoundEnd address report (fieldCheck report)) s = .next u.settle ∧
      Alike ((s.endTransaction g .bid .accepted).reportArrival i (report &&& 0x7FFF)) u ∧ u.engines = s.engines ∧
      u.bus = { s.bus with state := .gap g.rate, prev := .bid, ack := .accepted, bidRun := 0 } := by
  obtain ⟨-, -, hbus, heng, -⟩ :=
    offSources_fields (reportArrival_offSources (s.endTransaction g .bid .accepted) i (report &&& 0x7FFF))
  refine ⟨_, ?_, setBus_alike _ { ((s.endTransaction g .bid .accepted).reportArrival i (report &&& 0x7FFF)).bus with
    bidRun := 0 }, heng, by rw [State.bus_setBus, hbus]; rfl⟩
  rw [exec_bidRoundEnd hb hw, bidOutcome_won hi hn]
  unfold State.bidEffect BidOutcome.ack
  simp only [handOutcome_replied ha]

theorem endTransaction_alike (s : State) (g : InFlight) (kind : PrevKind) (ack : AckSlot) :
    Alike s (s.endTransaction g kind ack) := setBus_alike s _

/-- Settles O10: the report of a won round is a report arrival in an event that changes no port engine. -/
theorem wonRoundAppliesTheReport : Obligations.WonRoundAppliesTheReport := by
  unfold Obligations.WonRoundAppliesTheReport
  intro s g i address report conds hs ho hb hw ha hi hn hconds
  subst hconds
  obtain ⟨u, hrun, hu, heng, hbus⟩ := exec_bidRoundEnd_won hb hw ha hi hn (report := report)
  have h := reportArrival_settled hs ho (endTransaction_alike s g .bid .accepted) hu.latching
  have hlines : u.settle.sources.lines = s.sources.lines := by
    rw [settle_sources, hu.sources, reportArrival_lines]
    rfl
  refine ⟨_, hrun, by rw [settle_bus, hbus], h.touches, linksKept_of_engines hs heng, h.discarded, fun hon => ?_,
    h.opens, h.rests, fun n hop hnot => ⟨h.merges n hop hnot, h.waits n hop hnot⟩, h.closing⟩
  obtain ⟨hrep, hreach, hfail, hcode⟩ := h.noted hon
  exact ⟨hrep, hreach, hfail, hcode, hlines⟩

/-! ### The bid-failure run (R27) -/

theorem bidFailed_bus {s : State} (hrun : s.bus.bidRun < 4) (hopen : s.bus.suspended = false) :
    s.bidFailed.bus = { s.bus with bidRun := s.bus.bidRun + 1, suspended := decide (s.bus.bidRun = 3) } := by
  have h3 : decide (4 ≤ s.bus.bidRun + 1) = decide (s.bus.bidRun = 3) := by
    rw [decide_eq_decide]
    omega
  unfold State.bidFailed Config.suspendAt
  simp only [latchRisen_bus, State.bus_setBus, hrun, if_true, hopen, Bool.false_or, h3]

theorem present_suspended (s : State) (p : Port) : (s.present p).getLsbD 3 = s.bus.suspended := by
  unfold State.present
  generalize (!s.stranded.isEmpty) = a, s.backlogged p = b, s.anyUnreachable = c, s.bus.suspended = d,
    s.config.storeBlank = e, s.config.storeFault = f
  revert a b c d e f
  decide

/-- The failing round that takes the run to 4 latches FIELD_SUSPENDED at every port (R27, R163, R165). -/
theorem bidFailed_latched {s : State} (hrun : s.bus.bidRun = 3) (hopen : s.bus.suspended = false) (p : Port) :
    (s.bidFailed.latched p).getLsbD 3 = true := by
  have hnow := bidFailed_bus (s := s) (by omega) hopen
  have hrisen (new : State) (h : new.bus.suspended = true) :
      ((State.latchRisen s new).latched p).getLsbD 3 = true := by
    rw [latchRisen_latched, BitVec.getLsbD_or, risen, BitVec.getLsbD_and, BitVec.getLsbD_not, present_suspended,
      present_suspended, h, hopen]
    simp
  refine hrisen _ ?_
  have : s.bidFailed.bus.suspended = true := by simp [hnow, hrun]
  exact this

theorem bidFailed_latchedKept (s : State) : LatchedKept s s.bidFailed := by
  unfold State.bidFailed
  refine LatchedKept.trans ?_ (latchRisen_latchedKept s _)
  exact .of_attention rfl

theorem bidFailed_alikeLatching (s : State) : AlikeLatching s s.bidFailed :=
  ⟨rfl, rfl, rfl, rfl, rfl, bidFailed_latchedKept s, fun _ => ⟨rfl, rfl⟩⟩

/-- What a failing bid round leaves, u being the state once its outcome has been handed on (R25 to R27). -/
theorem bidFailed_leaves {s u : State} {g : InFlight} {ack : AckSlot} (hopen : s.bus.suspended = false)
    (hrun : s.bus.bidRun < 4) (hu : u.bus = (s.endTransaction g .bid ack).bus) :
    u.bidFailed.settle.bus = { s.bus with
        state := .gap g.rate, prev := .bid, bidRun := s.bus.bidRun + 1, suspended := decide (s.bus.bidRun = 3)
        ack := ack } ∧
      (s.bus.bidRun = 3 → ∀ p, (u.bidFailed.settle.latched p).getLsbD 3 = true ∧
        (u.bidFailed.settle.present p).getLsbD 3 = true) := by
  have hurun : u.bus.bidRun = s.bus.bidRun := by rw [hu]; rfl
  have huopen : u.bus.suspended = false := by rw [hu]; exact hopen
  have hbus : u.bidFailed.settle.bus = { u.bus with
      bidRun := s.bus.bidRun + 1, suspended := decide (s.bus.bidRun = 3) } := by
    rw [settle_bus, bidFailed_bus (by rwa [hurun]) huopen, hurun]
  refine ⟨by rw [hbus, hu]; rfl, fun h3 p => ⟨?_, ?_⟩⟩
  · exact (settle_latchedKept _).getLsbD (bidFailed_latched (by rwa [hurun]) huopen p)
  · rw [present_suspended, hbus]
    simpa using h3

/-- STRAY and EMPTY rounds give the source unit nothing (R26). -/
theorem bidFailed_rests {s : State} {g : InFlight} {ack : AckSlot} (hs : Settled s) :
    (s.endTransaction g .bid ack).bidFailed.settle = (s.endTransaction g .bid ack).bidFailed :=
  settle_of_quiet (hs.congr (t := (s.endTransaction g .bid ack).bidFailed) rfl rfl (fun _ => rfl) rfl).quiet

/-- Settles O13, by the outcome of the round. -/
theorem bidRoundOutcomes : Obligations.BidRoundOutcomes := by
  unfold Obligations.BidRoundOutcomes
  intro s g address report check good hs hb hw hopen hrun hgood
  have hexec := exec_bidRoundEnd hb hw address report check
  by_cases hwon : 1 ≤ address.toNat ∧ address.toNat ≤ 48 ∧ check = fieldCheck report
  · obtain ⟨h1, h48, rfl⟩ := hwon
    obtain ⟨i, hi, hn⟩ := exists_fieldSource h1 h48
    have htrue : good = true := by rw [hgood]; simp [h1, h48]
    rw [bidOutcome_won hi hn] at hexec
    refine ⟨_, hexec, ?_, fun hc => ?_, fun hc => ?_, fun _ _ _ _ _ hc => absurd rfl hc⟩
    · have hbus := (busPart_fields (handOutcome_busPart (s.endTransaction g .bid .accepted) g i
        (.replied (report &&& 0x7FFF)))).2
      have hflag : (!good && decide (s.bus.bidRun = 3)) = s.bus.suspended := by rw [htrue, hopen]; rfl
      rw [settle_bus, hflag, if_neg (address_ne_63 h48), htrue]
      simp only [State.bidEffect, BidOutcome.ack, State.bus_setBus, hbus]
      rfl
    · rw [htrue] at hc; cases hc
    · omega
  · have hfalse : good = false := by rw [hgood]; exact decide_eq_false hwon
    subst hfalse
    simp only [Bool.not_false, Bool.true_and, if_false, Bool.false_eq_true]
    rcases bidOutcome_notWon hwon with ⟨h63, ho⟩ | ⟨h63, hout, ho⟩ | ⟨h63, i, hi, hn, hc, ho⟩
    · rw [ho] at hexec
      obtain ⟨hbus, hlatch⟩ := bidFailed_leaves (g := g) (ack := .notGiven) hopen hrun rfl
      refine ⟨_, hexec, ?_, fun _ => hlatch, fun _ => ?_, fun i _ _ hi hn => ?_⟩
      · rw [if_pos h63]
        exact hbus
      · have hrest := bidFailed_rests (g := g) (ack := .notGiven) hs
        simp only [State.bidEffect, BidOutcome.ack, hrest]
        exact ⟨rfl, rfl, rfl, rfl⟩
      · exact absurd h63 (address_ne_63 (hn ▸ (isDirect_iff i).mp hi))
    · rw [ho] at hexec
      obtain ⟨hbus, hlatch⟩ := bidFailed_leaves (g := g) (ack := .refused) hopen hrun rfl
      refine ⟨_, hexec, ?_, fun _ => hlatch, fun _ => ?_, fun i _ _ hi hn => ?_⟩
      · rw [if_neg h63]
        exact hbus
      · have hrest := bidFailed_rests (g := g) (ack := .refused) hs
        simp only [State.bidEffect, BidOutcome.ack, hrest]
        exact ⟨rfl, rfl, rfl, rfl⟩
      · have := (isDirect_iff i).mp hi
        unfold Src.num at hn this
        omega
    · rw [ho] at hexec
      have hoff := handOutcome_offSources (s.endTransaction g .bid .refused) g i .badCheck
      obtain ⟨-, -, hubus, heng, -⟩ := offSources_fields hoff
      obtain ⟨hbus, hlatch⟩ := bidFailed_leaves hopen hrun hubus
      refine ⟨_, hexec, ?_, fun _ => hlatch, fun hout => ?_, fun j ho ha hj hnj _ => ?_⟩
      · rw [if_neg h63]
        exact hbus
      · have := (isDirect_iff i).mp hi
        unfold Src.num at hn this
        omega
      · have hij : i = j := by
          unfold Src.num at hn hnj
          exact Fin.ext (by omega)
        subst hij
        refine ⟨?_, linksKept_of_engines hs heng⟩
        have hfail := handOutcome_failed (s := s.endTransaction g .bid .refused) (i := i) ha (.inl rfl)
        refine failedExchange_latching hs ho (endTransaction_alike s g .bid .refused) ?_
        rw [← hfail]
        exact bidFailed_alikeLatching _

/-! ### Arbitration (R24) -/

/-- The bits that the address slots read, of the bidders that are left, are those of the lowest bidder. -/
theorem bidSlots_lowest (k : Nat) {bidders : List (BitVec 6)} (h : bidders ≠ []) :
    (∃ a ∈ bidders, bidSlots k bidders = a.toNat % 2 ^ k) ∧
      ∀ a ∈ bidders, bidSlots k bidders ≤ a.toNat % 2 ^ k := by
  induction k generalizing bidders with
  | zero =>
    obtain ⟨a, ha⟩ := List.exists_mem_of_ne_nil bidders h
    exact ⟨⟨a, ha, by simp [bidSlots, Nat.mod_one]⟩, fun a _ => by simp [bidSlots]⟩
  | succ k ih =>
    have hbit (a : BitVec 6) : a.toNat % 2 ^ (k + 1) = a.toNat % 2 ^ k + 2 ^ k * (a.getLsbD k).toNat := by
      rw [Nat.mod_pow_succ, ← Nat.toNat_testBit]
      rfl
    by_cases hall : bidders.all (fun a => a.getLsbD k) = true
    · have hset (a : BitVec 6) (ha : a ∈ bidders) : a.toNat % 2 ^ (k + 1) = 2 ^ k + a.toNat % 2 ^ k := by
        rw [hbit, List.all_eq_true.mp hall a ha, Bool.toNat_true]
        omega
      have hread : bidSlots (k + 1) bidders = 2 ^ k + bidSlots k bidders := by
        simp [bidSlots, bidSlot, hall, boolNat]
      obtain ⟨⟨a, ha, heq⟩, hle⟩ := ih h
      refine ⟨⟨a, ha, by rw [hread, hset a ha, heq]⟩, fun b hb => ?_⟩
      rw [hread, hset b hb]
      exact Nat.add_le_add_left (hle b hb) _
    · have hread : bidSlots (k + 1) bidders = bidSlots k (bidders.filter (fun a => !a.getLsbD k)) := by
        simp [bidSlots, bidSlot, hall, boolNat]
      have hclear (a : BitVec 6) (ha : a.getLsbD k = false) : a.toNat % 2 ^ (k + 1) = a.toNat % 2 ^ k := by
        rw [hbit, ha]
        simp
      have hleft : bidders.filter (fun a => !a.getLsbD k) ≠ [] := by
        simpa [List.filter_eq_nil_iff] using hall
      obtain ⟨⟨a, ha, heq⟩, hle⟩ := ih hleft
      rw [List.mem_filter, Bool.not_eq_true'] at ha
      refine ⟨⟨a, ha.1, by rw [hread, hclear a ha.2, heq]⟩, fun b hb => ?_⟩
      rw [hread]
      cases hb' : b.getLsbD k with
      | false =>
        rw [hclear b hb']
        exact hle b (List.mem_filter.mpr ⟨hb, by simp [hb']⟩)
      | true =>
        rw [heq, hbit, hb', Bool.toNat_true]
        have := Nat.mod_lt a.toNat (Nat.two_pow_pos k)
        omega

/-- Of the sources that bid as R24 states, the lowest address is read. -/
theorem addressRead_lowest {bidders : List (BitVec 6)} (h : bidders ≠ []) :
    addressRead bidders ∈ bidders ∧ ∀ a ∈ bidders, (addressRead bidders).toNat ≤ a.toNat := by
  obtain ⟨⟨a, ha, heq⟩, hle⟩ := bidSlots_lowest 6 h
  have hmod (b : BitVec 6) : b.toNat % 2 ^ 6 = b.toNat := Nat.mod_eq_of_lt b.isLt
  rw [hmod] at heq
  have hread : addressRead bidders = a := by
    unfold addressRead
    rw [heq, BitVec.ofNat_toNat, BitVec.setWidth_eq]
  refine ⟨hread ▸ ha, fun b hb => ?_⟩
  rw [hread, ← heq, ← hmod b]
  exact hle b hb

/-- The acknowledge slot of a bid round (R25). -/
theorem bidOutcome_ack_driven {address : BitVec 6} {report : BitVec 16} {check : BitVec 8} (h63 : address ≠ 63) :
    (bidOutcome address report check).ack.driven =
      [some (!decide (1 ≤ address.toNat ∧ address.toNat ≤ 48 ∧ check = fieldCheck report))] := by
  by_cases hwon : 1 ≤ address.toNat ∧ address.toNat ≤ 48 ∧ check = fieldCheck report
  · obtain ⟨i, hi, hn⟩ := exists_fieldSource hwon.1 hwon.2.1
    rw [decide_eq_true hwon, hwon.2.2, bidOutcome_won hi hn]
    rfl
  · rw [decide_eq_false hwon]
    rcases bidOutcome_notWon hwon with ⟨h, -⟩ | ⟨-, -, ho⟩ | ⟨-, i, -, -, -, ho⟩
    · exact absurd h h63
    · rw [ho]; rfl
    · rw [ho]; rfl

/-- Settles O12: `addressRead_lowest` for the arbitration; the round of the lowest bidder is a won round. -/
theorem lowestBidderIsHeard : Obligations.LowestBidderIsHeard := by
  unfold Obligations.LowestBidderIsHeard
  refine ⟨rfl, by decide, fun bidders h => addressRead_lowest h, ?_, ?_⟩
  · intro s g bidders i report hb hw ha hon hi hmem hlow
    have hn : (addressRead bidders).toNat = i.num := by
      obtain ⟨h1, h2⟩ := addressRead_lowest (List.ne_nil_of_mem hmem)
      have hi6 : (BitVec.ofNat 6 i.num).toNat = i.num := by
        have := (isDirect_iff i).mp hi
        rw [BitVec.toNat_ofNat]
        exact Nat.mod_eq_of_lt (by omega)
      exact le_antisymm (hi6 ▸ h2 _ hmem) (hlow _ h1)
    obtain ⟨u, hrun, hu, -, hbus⟩ := exec_bidRoundEnd_won hb hw ha hi hn (report := report)
    refine ⟨_, hrun, by rw [settle_bus, hbus], ?_⟩
    rw [settle_src, hu.src]
    exact (reportArrival_src (s := s.endTransaction g .bid .accepted) hon _).1
  · intro g address report check hw
    unfold InFlight.slots
    rw [hw]
    dsimp only
    by_cases h63 : address = 63
    · subst h63
      rw [bidOutcome_empty]
      rfl
    · simp only [if_neg h63, bidOutcome_ack_driven h63]
      rfl

end Sys2Proof.Machine

/-! The arbiter's choices at GAP_END and FAT_LOW, the wires of the field bus, and the scan (O14, O15). -/

namespace Sys2Proof.Machine

/-! ### Choices of an IDLE bus (R42, R43) -/

theorem arbiter_idle {s : State} (hi : s.bus.state = .idle) (hon : s.stage ≠ .booting) :
    s.arbiter = s.advanceScan.choose := if_pos ⟨hi, hon⟩

theorem arbiter_running {s : State} (hi : s.bus.state = .idle) (hr : s.stage = .running) : s.arbiter = s.choose := by
  have hadv : s.advanceScan = s := if_neg (by simp [hr])
  rw [arbiter_idle hi (by simp [hr]), hadv]

theorem scanWaiting_running {s : State} (hr : s.stage = .running) : s.scanWaiting = none := if_neg (by simp [hr])

/-- With every transmitter at rest an event that changes the bus alone has nothing to send. -/
theorem settle_setBus {s : State} (hs : Settled s) (b : FieldBus) : (s.setBus b).settle = s.setBus b :=
  settle_of_quiet (hs.congr (t := s.setBus b) rfl rfl (fun _ => rfl) rfl).quiet

theorem exec_gapEnd {s : State} {r : FieldRate} (h : s.bus.state = .gap r) (fat : Bool) :
    exec (.gapEnd fat) s = .next (s.setBus { s.bus with state := .idle, fatLow := fat }).arbiter.settle := by
  show execGapEnd fat s = _
  unfold execGapEnd
  rw [h]

theorem exec_fatLow {s : State} (h : s.stage ≠ .booting) :
    exec .fatLow s = .next (s.setBus { s.bus with fatLow := true }).arbiter.settle :=
  congrArg Host.Outcome.next (if_neg h)

theorem exec_fatLow_busy {s : State} (hs : Settled s) (hon : s.stage ≠ .booting) (hb : s.bus.state ≠ .idle) :
    exec .fatLow s = .next (s.setBus { s.bus with fatLow := true }) := by
  rw [exec_fatLow hon, arbiter_busy (s := s.setBus { s.bus with fatLow := true }) hb, settle_setBus hs]

/-- GAP_END in RUNNING: a bid round that has its turn, the head clear, the head poll, or nothing (R43). -/
theorem exec_gapEnd_running {s : State} {r : FieldRate} {fat bid : Bool} (hs : Settled s)
    (hgap : s.bus.state = .gap r) (hr : s.stage = .running)
    (hbid : bid = decide (fat = true ∧ s.bus.suspended = false ∧
      (s.bus.prev ≠ .bid ∨ (s.bus.clearList = [] ∧ s.bus.pollQueue = [])))) :
    (bid = true → exec (.gapEnd fat) s = .next (s.setBus { s.bus with fatLow := fat, state := s.opening .bid })) ∧
    (∀ c rest, bid = false → s.bus.clearList = c :: rest → exec (.gapEnd fat) s = .next
      (s.setBus { s.bus with fatLow := fat, clearList := rest, state := s.opening (.clear c false) })) ∧
    (∀ e rest, bid = false → s.bus.clearList = [] → s.bus.pollQueue = e :: rest → exec (.gapEnd fat) s = .next
      (s.setBus { s.bus with fatLow := fat, pollQueue := rest, state := s.opening (.poll e) })) ∧
    (bid = false → s.bus.clearList = [] → s.bus.pollQueue = [] →
      exec (.gapEnd fat) s = .next (s.setBus { s.bus with fatLow := fat, state := .idle })) := by
  have hrun := exec_gapEnd hgap fat
  rw [arbiter_running (s := s.setBus { s.bus with state := .idle, fatLow := fat }) rfl hr] at hrun
  generalize hu : s.setBus { s.bus with state := .idle, fatLow := fat } = u at hrun
  have hscan : u.scanWaiting = none := scanWaiting_running (by rw [← hu]; exact hr)
  have hdue : bid = true ↔ u.BidDue := by
    unfold State.BidDue
    rw [hscan, hbid, decide_eq_true_eq, ← hu]
    simp
  have hclear : u.bus.clearList = s.bus.clearList := by rw [← hu]; rfl
  have hpoll : u.bus.pollQueue = s.bus.pollQueue := by rw [← hu]; rfl
  have hno (h : bid = false) : ¬ u.BidDue := by rw [← hdue, h]; simp
  refine ⟨fun h => ?_, fun c rest h hc => ?_, fun e rest h hc hp => ?_, fun h hc hp => ?_⟩
  · rw [hrun, choose_bid (hdue.mp h), ← hu]
    exact congrArg Host.Outcome.next (settle_setBus hs _)
  · rw [hrun, choose_clear (hno h) (hclear.trans hc), ← hu]
    exact congrArg Host.Outcome.next (settle_setBus hs _)
  · rw [hrun, choose_poll (hno h) (hclear.trans hc) (hpoll.trans hp), ← hu]
    exact congrArg Host.Outcome.next (settle_setBus hs _)
  · rw [hrun, choose_nothing (hno h) (hclear.trans hc) (hpoll.trans hp) hscan, ← hu]
    exact congrArg Host.Outcome.next (settle_setBus hs _)

/-- FAT_LOW in RUNNING with no work waiting (R42). -/
theorem exec_fatLow_running {s : State} (hs : Settled s) (hr : s.stage = .running) (hc : s.bus.clearList = [])
    (hp : s.bus.pollQueue = []) :
    (s.bus.state = .idle → s.bus.suspended = false →
      exec .fatLow s = .next (s.setBus { s.bus with fatLow := true, state := s.opening .bid })) ∧
    (s.bus.state ≠ .idle ∨ s.bus.suspended = true →
      exec .fatLow s = .next (s.setBus { s.bus with fatLow := true })) := by
  have hon : s.stage ≠ .booting := by simp [hr]
  have hscan : (s.setBus { s.bus with fatLow := true }).scanWaiting = none := scanWaiting_running hr
  refine ⟨fun hi hopen => ?_, fun hnot => ?_⟩
  · rw [exec_fatLow hon, arbiter_running (s := s.setBus { s.bus with fatLow := true }) hi hr,
      choose_bid (s := s.setBus { s.bus with fatLow := true }) ⟨rfl, hopen, .inr ⟨hc, hp, hscan⟩⟩]
    exact congrArg Host.Outcome.next (settle_setBus hs _)
  · by_cases hi : s.bus.state = .idle
    · have hsusp : s.bus.suspended = true := hnot.resolve_left (fun h => h hi)
      rw [exec_fatLow hon, arbiter_running (s := s.setBus { s.bus with fatLow := true }) hi hr,
        choose_nothing (s := s.setBus { s.bus with fatLow := true }) (fun h => ?_) hc hp hscan, settle_setBus hs]
      have hopen : s.bus.suspended = false := h.2.1
      rw [hsusp] at hopen
      cases hopen
    · exact exec_fatLow_busy hs hon hi

/-! ### The wires (R20, R21) -/

/-- The wires of a transaction, half slot by half slot: the opening edge, the slots, and rest (R21). -/
theorem drive_slots (g : InFlight) (heard : Heard) : g.drive heard 0 = ⟨true, true⟩ ∧
    (∀ (k : Nat) (bit : Option Bool), (g.slots heard)[k]? = some bit →
      g.drive heard (2 * k + 1) = ⟨false, decide (bit = some false)⟩ ∧
      g.drive heard (2 * k + 2) = ⟨true, decide (bit = some false)⟩) ∧
    (∀ h, 2 * (g.slots heard).length < h → g.drive heard h = ⟨true, false⟩) := by
  have hlater (n : Nat) : g.drive heard (n + 1) =
      (((g.slots heard).flatMap slotHalves)[n]?).getD WireDrive.rest := by
    unfold InFlight.drive
    rw [List.getD_cons_succ, List.getD_eq_getElem?_getD]
  refine ⟨rfl, fun k bit hbit => ?_, fun h hh => ?_⟩
  · obtain ⟨h1, h2⟩ := slotHalves_at (g.slots heard) k
    rw [hlater, hlater, h1, h2, hbit, ← beq_eq_decide]
    exact ⟨rfl, rfl⟩
  · obtain ⟨n, rfl⟩ : ∃ n, h = n + 1 := ⟨h - 1, by omega⟩
    rw [hlater, List.getElem?_eq_none (by rw [length_slotHalves]; omega)]
    rfl

/-- Settles O14: the choices by `exec_gapEnd_running` and `exec_fatLow_running`, the wires by `drive_slots`. -/
theorem arbiterChoosesTheNextTransaction : Obligations.ArbiterChoosesTheNextTransaction := by
  unfold Obligations.ArbiterChoosesTheNextTransaction
  refine ⟨fun s r fat bid hs hgap hr hbid => exec_gapEnd_running hs hgap hr hbid,
    fun s hs hr hc hp => exec_fatLow_running hs hr hc hp, fun s hs => ⟨fun hon hb => exec_fatLow_busy hs hon hb,
      fun hsc hnever => ?_, fun hboot => congrArg Host.Outcome.next (if_pos hboot)⟩, ?_, ?_, fun _ => rfl, rfl⟩
  · refine exec_fatLow_busy hs (by simp [hsc]) fun hi => ?_
    have := (hnever (by simp [hsc]) hi).2.2.1
    rw [hsc] at this
    cases this
  · rintro s heard h (hi | ⟨r, hr⟩)
    · exact drive_of_idle hi heard h
    · exact drive_of_gap hr heard h
  · intro s g heard hb
    simp only [drive_of_inFlight hb]
    exact drive_slots g heard

/-! ### The scan (R41, R187) -/

/-- The cursor comes to the first enabled field source at or above it (R41). -/
theorem scanPosition_some {s : State} {pos : Nat} {i : Src} (hi : i.isDirect = false) (hpos : pos ≤ i.num)
    (hen : (s.cfg i).enabled = true) (hfirst : ∀ j : Src, pos ≤ j.num → j.num < i.num → (s.cfg j).enabled = false) :
    s.scanPosition pos = i.num := by
  have hi48 := (isDirect_iff i).mp hi
  unfold State.scanPosition
  split
  · rename_i j hj
    obtain ⟨hfound, before, after, hall, hbefore⟩ := List.find?_eq_some_iff_append.mp hj
    simp only [Bool.and_eq_true, decide_eq_true_eq] at hfound
    obtain ⟨⟨hposj, -⟩, henj⟩ := hfound
    have hle : i.num ≤ j.num := by
      by_contra hlt
      rw [hfirst j hposj (by omega)] at henj
      cases henj
    have hsorted : (before ++ j :: after).Pairwise (· < ·) := hall ▸ List.pairwise_lt_finRange 56
    have hmem : i ∈ before ++ j :: after := hall ▸ mem_srcAll i
    rcases List.mem_append.mp hmem with hb | hb
    · have := hbefore i hb
      simp [hpos, hi48, hen] at this
    · rcases List.mem_cons.mp hb with rfl | ha
      · rfl
      · have hlt : j.val < i.val := (List.pairwise_cons.mp (List.pairwise_append.mp hsorted).2.1).1 i ha
        unfold Src.num at hle ⊢
        omega
  · rename_i hnone
    have := List.find?_eq_none.mp hnone i (mem_srcAll i)
    simp [hpos, hi48, hen] at this

theorem scanPosition_none {s : State} {pos : Nat}
    (h : ∀ j : Src, j.isDirect = false → pos ≤ j.num → (s.cfg j).enabled = false) : s.scanPosition pos = 49 := by
  unfold State.scanPosition
  split
  · rename_i j hj
    have := List.find?_some hj
    simp only [Bool.and_eq_true, decide_eq_true_eq] at this
    obtain ⟨⟨h1, h2⟩, h3⟩ := this
    rw [h j ((isDirect_iff j).mpr h2) h1] at h3
    cases h3
  · rfl

/-- The cursor moves to a source that is left to scan (R41). -/
theorem advanceScan_moves {s : State} {pos : Nat} (hsc : s.stage = .scanning) (hpos : s.scanPosition s.bus.cursor = pos)
    (h49 : pos ≠ 49) : s.advanceScan = s.setBus { s.bus with cursor := pos } := by
  subst hpos
  unfold State.advanceScan
  rw [if_pos hsc]
  exact if_neg h49

/-- Past the last source the scan ends (R187). -/
theorem advanceScan_ends {s : State} (hsc : s.stage = .scanning) (hpos : s.scanPosition s.bus.cursor = 49) :
    s.advanceScan = { s.setBus { s.bus with cursor := 49 } with stage := .running } := by
  unfold State.advanceScan
  rw [if_pos hsc]
  dsimp only
  rw [hpos]
  exact if_pos rfl

/-- GAP_END in SCANNING with no clear and no poll waiting, while a source is left to scan: its scan step, unless a bid
round has its turn (R41, R43). -/
theorem exec_gapEnd_scans {s : State} {r : FieldRate} {fat : Bool} {i : Src} (hs : Settled s)
    (hgap : s.bus.state = .gap r) (hsc : s.stage = .scanning) (hc : s.bus.clearList = []) (hp : s.bus.pollQueue = [])
    (hi : i.isDirect = false) (hpos : s.scanPosition s.bus.cursor = i.num) :
    exec (.gapEnd fat) s = .next (s.setBus { s.bus with
      fatLow := fat
      cursor := i.num
      state := if fat = true ∧ s.bus.suspended = false ∧ s.bus.prev ≠ PrevKind.bid then s.opening BusWork.bid
        else s.opening (.scan i) }) := by
  have hrun := exec_gapEnd hgap fat
  rw [arbiter_idle (s := s.setBus { s.bus with state := .idle, fatLow := fat }) rfl
    (by rw [State.stage_setBus, hsc]; simp)] at hrun
  have hadv : (s.setBus { s.bus with state := .idle, fatLow := fat }).advanceScan =
      s.setBus { s.bus with state := .idle, fatLow := fat, cursor := i.num } := by
    have h49 : i.num ≠ 49 := by
      have := (isDirect_iff i).mp hi
      omega
    exact advanceScan_moves (s := s.setBus { s.bus with state := .idle, fatLow := fat }) hsc hpos h49
  rw [hadv] at hrun
  generalize hu : s.setBus { s.bus with state := .idle, fatLow := fat, cursor := i.num } = u at hrun
  have hwaits : u.scanWaiting = some i := by
    rw [← hu]
    exact (if_pos hsc).trans (ofNum_num i)
  have hdue : u.BidDue ↔ fat = true ∧ s.bus.suspended = false ∧ s.bus.prev ≠ .bid := by
    unfold State.BidDue
    rw [hwaits, ← hu]
    simp
  rw [hrun]
  by_cases hbid : u.BidDue
  · rw [choose_bid hbid, if_pos (hdue.mp hbid), ← hu]
    exact congrArg Host.Outcome.next (settle_setBus hs _)
  · rw [choose_scan hbid (by rw [← hu]; exact hc) (by rw [← hu]; exact hp) hwaits, if_neg (mt hdue.mpr hbid), ← hu]
    exact congrArg Host.Outcome.next (settle_setBus hs _)

/-- GAP_END past the last source to scan: the stage is RUNNING, and a bid round opens where FAT is low (R41, R187). -/
theorem exec_gapEnd_scanned {s : State} {r : FieldRate} {fat : Bool} (hgap : s.bus.state = .gap r)
    (hsc : s.stage = .scanning) (hc : s.bus.clearList = []) (hp : s.bus.pollQueue = [])
    (hpos : s.scanPosition s.bus.cursor = 49) :
    ∃ t, exec (.gapEnd fat) s = .next t ∧ t.stage = .running ∧ t.bus = { s.bus with
      fatLow := fat
      cursor := 49
      state := if fat = true ∧ s.bus.suspended = false then s.opening BusWork.bid else BusState.idle } := by
  have hrun := exec_gapEnd hgap fat
  rw [arbiter_idle (s := s.setBus { s.bus with state := .idle, fatLow := fat }) rfl
    (by rw [State.stage_setBus, hsc]; simp)] at hrun
  rw [advanceScan_ends (s := s.setBus { s.bus with state := .idle, fatLow := fat }) hsc hpos] at hrun
  generalize hu : ({ (s.setBus { s.bus with state := .idle, fatLow := fat }).setBus
    { (s.setBus { s.bus with state := .idle, fatLow := fat }).bus with cursor := 49 } with
    stage := .running } : State) = u at hrun
  have hwaits : u.scanWaiting = none := scanWaiting_running (by rw [← hu])
  have hdue : u.BidDue ↔ fat = true ∧ s.bus.suspended = false := by
    unfold State.BidDue
    rw [hwaits, ← hu]
    simp [hc, hp]
  obtain ⟨hst, hbus⟩ := busPart_fields (settle_busPart u.choose)
  refine ⟨_, hrun, ?_, ?_⟩
  · rw [hst, (choose_bus u).2.2.1, ← hu]
  · rw [hbus]
    by_cases hbid : u.BidDue
    · rw [choose_bid hbid, if_pos (hdue.mp hbid), ← hu]
      rfl
    · rw [choose_nothing hbid (by rw [← hu]; exact hc) (by rw [← hu]; exact hp) hwaits, if_neg (mt hdue.mpr hbid),
        ← hu]
      rfl

end Sys2Proof.Machine

/-! The outcome of an exchange, and SCAN_STEP_END (O15). -/

namespace Sys2Proof.Machine

/-! ### The outcome of an exchange (R29, R31) -/

theorem busOutcome_good {w : Byte} {lead : Nat} (h : lead ≤ w.toNat) (report : BitVec 16) :
    busOutcome w (some ⟨lead, report, fieldCheck report⟩) = .replied (report &&& 0x7FFF) :=
  (if_pos h).trans (if_pos rfl)

theorem busOutcome_failed_ack {w : Byte} {reply : Option FieldReply} (h : failedReply w reply) :
    (busOutcome w reply).ack = failedAck w reply := by
  cases reply with
  | none => rfl
  | some x =>
    unfold busOutcome failedAck
    by_cases hlead : x.lead ≤ w.toNat
    · have hcheck : ¬ fieldCheck x.report = x.check := fun hc =>
        h.elim (fun hlate => absurd hlate (by omega)) (fun hbad => hbad hc.symm)
      simp only [if_pos hlead, if_neg hcheck, if_neg (show ¬ w.toNat < x.lead by omega)]
      rfl
    · simp only [if_neg hlead, if_pos (show w.toNat < x.lead by omega)]
      rfl

theorem handOutcome_bus (s : State) (g : InFlight) (i : Src) (o : BusOutcome) : (s.handOutcome g i o).bus = s.bus :=
  (busPart_fields (handOutcome_busPart s g i o)).2

theorem handOutcome_engines (s : State) (g : InFlight) (i : Src) (o : BusOutcome) :
    (s.handOutcome g i o).engines = s.engines := (offSources_fields (handOutcome_offSources s g i o)).2.2.2.1

/-! ### SCAN_STEP_END (R41) -/

theorem moveCursor_alike (s : State) (o : BusOutcome) : Alike s (s.moveCursor o) := by
  unfold State.moveCursor
  split
  · exact setBus_alike s _
  · split <;> exact setBus_alike s _
  · split <;> exact setBus_alike s _

theorem moveCursor_engines (s : State) (o : BusOutcome) : (s.moveCursor o).engines = s.engines := by
  unfold State.moveCursor
  split
  · rfl
  · split <;> rfl
  · split <;> rfl

/-- After a failed scan step the cursor stays for two more attempts (R41). -/
theorem moveCursor_failed {s : State} {o : BusOutcome} (h : o = .badCheck ∨ o = .noReply) :
    (s.moveCursor o).bus = { s.bus with
      cursor := if s.bus.attempts < 2 then s.bus.cursor else s.bus.cursor + 1
      attempts := if s.bus.attempts < 2 then s.bus.attempts + 1 else 0 } := by
  rcases h with rfl | rfl <;>
  · unfold State.moveCursor
    dsimp only
    split <;> rfl

/-- SCAN_STEP_END of a scan step in flight: its outcome o is handed on and the cursor moves. -/
theorem exec_scanStepEnd {s : State} {g : InFlight} {i : Src} {reply : Option FieldReply} {o : BusOutcome}
    (hb : s.bus.state = .inFlight g) (hw : g.work = .scan i) (ho : busOutcome g.window reply = o) :
    ∃ v, exec (.scanStepEnd reply) s = .next (v.moveCursor o).settle ∧
      v = (s.endTransaction g .work o.ack).handOutcome g i o ∧
      v.bus = { s.bus with state := .gap g.rate, prev := .work, ack := o.ack } ∧
      (Settled s → LinksKept s (v.moveCursor o).settle) := by
  refine ⟨_, ?_, rfl, handOutcome_bus _ g i o, fun hs => linksKept_of_engines hs
    ((moveCursor_engines _ o).trans (handOutcome_engines _ g i o))⟩
  show execScanStepEnd reply s = _
  unfold execScanStepEnd
  rw [hb]
  simp only [hw, ho]

theorem scanStepEnd_good {s : State} {g : InFlight} {i : Src} (hb : s.bus.state = .inFlight g) (hw : g.work = .scan i)
    (ha : g.afterClearAll = false) {lead : Nat} {report : BitVec 16} (hlead : lead ≤ g.window.toNat) :
    ∃ t, exec (.scanStepEnd (some ⟨lead, report, fieldCheck report⟩)) s = .next t ∧
      t.bus = { s.bus with state := .gap g.rate, prev := .work, ack := .accepted, cursor := s.bus.cursor + 1,
                           attempts := 0 } ∧
      (Settled s → SourcesOk s → ReportArrives s t i (report &&& 0x7FFF) ∧ LinksKept s t) ∧
      ((s.src i).state ≠ .disabled → (t.src i).reported = report &&& 0x7FFF ∧ (t.src i).reach = .reachable ∧
        (t.src i).failures = 0) := by
  obtain ⟨v, hrun, hv, hbus, hlinks⟩ := exec_scanStepEnd hb hw (busOutcome_good hlead report)
  rw [handOutcome_replied ha] at hv
  have hmoved := moveCursor_alike v (.replied (report &&& 0x7FFF))
  refine ⟨_, hrun, ?_, fun hs ho => ⟨?_, hlinks hs⟩, fun hon => ?_⟩
  · rw [settle_bus]
    show { v.bus with cursor := v.bus.cursor + 1, attempts := 0 } = _
    rw [hbus]
    rfl
  · subst hv
    exact reportArrival_settled hs ho (endTransaction_alike s g .work .accepted) hmoved.latching
  · obtain ⟨hrep, hreach, hfail, -⟩ :=
      reportArrival_src (s := s.endTransaction g .work .accepted) hon (report &&& 0x7FFF)
    rw [settle_src, hmoved.src, hv]
    exact ⟨hrep, hreach, hfail⟩

theorem scanStepEnd_failed {s : State} {g : InFlight} {i : Src} (hb : s.bus.state = .inFlight g)
    (hw : g.work = .scan i) (ha : g.afterClearAll = false) {reply : Option FieldReply}
    (hf : failedReply g.window reply) :
    ∃ t, exec (.scanStepEnd reply) s = .next t ∧
      t.bus = { s.bus with
        state := .gap g.rate
        prev := .work
        ack := failedAck g.window reply
        cursor := if s.bus.attempts < 2 then s.bus.cursor else s.bus.cursor + 1
        attempts := if s.bus.attempts < 2 then s.bus.attempts + 1 else 0 } ∧
      (Settled s → SourcesOk s → FailedExchange s t i ∧ LinksKept s t) ∧
      ((s.src i).state ≠ .disabled → (s.src i).failures < 3 → (t.src i).failures = (s.src i).failures + 1) := by
  obtain ⟨v, hrun, hv, hbus, hlinks⟩ := exec_scanStepEnd hb hw rfl
  have hout := busOutcome_failed hf
  rw [handOutcome_failed ha hout] at hv
  rw [busOutcome_failed_ack hf] at hbus hv
  have hmoved := moveCursor_alike v (busOutcome g.window reply)
  refine ⟨_, hrun, ?_, fun hs ho => ⟨?_, hlinks hs⟩, fun hon h3 => ?_⟩
  · rw [settle_bus, moveCursor_failed hout, hbus]
  · subst hv
    exact failedExchange_settled hs ho (endTransaction_alike s g .work _) hmoved
  · rw [settle_src, hmoved.src, hv]
    exact failedExchange_failures (s := s.endTransaction g .work (failedAck g.window reply)) hon h3

/-- Settles O15. -/
theorem scanVisitsTheEnabledSources : Obligations.ScanVisitsTheEnabledSources := by
  unfold Obligations.ScanVisitsTheEnabledSources
  refine ⟨fun s r fat hs hgap hsc hc hp => ⟨fun i hi hpos hen hfirst => ?_, fun hnone => ?_⟩,
    fun s g i hb hw ha => ⟨fun lead report hlead => scanStepEnd_good hb hw ha hlead,
      fun reply hf => scanStepEnd_failed hb hw ha hf⟩⟩
  · exact exec_gapEnd_scans hs hgap hsc hc hp hi (scanPosition_some hi hpos hen hfirst)
  · exact exec_gapEnd_scanned hgap hsc hc hp (scanPosition_none hnone)

end Sys2Proof.Machine

/-! The slots of an exchange, and POLL_END (O16). -/

namespace Sys2Proof.Machine

/-! ### The slots of an exchange (R22, R29 to R31) -/

/-- The slots of a word that the part drives. -/
theorem msbBits_driven {w : Nat} (v : BitVec w) :
    (msbBits v).map some = (List.range w).reverse.map (fun k => some (v.getLsbD k)) := by
  have hreverse : (List.range w).reverse = (List.range w).map (fun k => w - 1 - k) := by
    rw [List.range_eq_range', List.reverse_range', List.range_eq_range', Nat.zero_add]
  unfold msbBits
  rw [hreverse, List.map_map, List.map_map]
  rfl

theorem msbBits_address (n : Nat) :
    (msbBits (BitVec.ofNat 6 n)).map some = [5, 4, 3, 2, 1, 0].map (fun k => some (n.testBit k)) := by
  rw [msbBits_driven]
  refine List.map_congr_left fun k hk => ?_
  have hk6 : k < 6 := by simpa using hk
  rw [BitVec.getLsbD_ofNat, decide_eq_true hk6, Bool.true_and]

/-- No reply starts in the window: its slots are all the source's. -/
theorem slots_noReply (u : InFlight) {r : Option FieldReply} (h : ∀ x, r = some x → u.window.toNat < x.lead) :
    u.slots (.reply r) = u.work.drivenSlots.map some ++ List.replicate u.window.toNat none := by
  cases r with
  | none => rfl
  | some x =>
    have hlate : ¬ x.lead ≤ u.window.toNat := Nat.not_le.mpr (h x rfl)
    simp [InFlight.slots, busOutcome, hlate, BusOutcome.ack, AckSlot.driven]

/-- A reply in the window: its slots are the source's, and the acknowledge slot tells whether its check is good. -/
theorem slots_reply {u : InFlight} {x : FieldReply} (h : x.lead ≤ u.window.toNat) : u.slots (.reply (some x)) =
    u.work.drivenSlots.map some ++ List.replicate (x.lead + 16 + 8) none ++
      [some (decide (x.check ≠ fieldCheck x.report))] := by
  have hack : (busOutcome u.window (some x)).ack.driven = [some (decide (x.check ≠ fieldCheck x.report))] := by
    by_cases hc : fieldCheck x.report = x.check
    · simp [busOutcome, h, hc, BusOutcome.ack, AckSlot.driven]
    · simp [busOutcome, h, hc, Ne.symm hc, BusOutcome.ack, AckSlot.driven]
  simp [InFlight.slots, h, hack]

/-! ### Responses at the ports of a requester set -/

theorem PortSet.mem_toList (v : PortSet) (p : Port) : p ∈ v.toList ↔ v.has p = true := by
  unfold PortSet.toList
  rw [List.mem_filter]
  exact and_iff_right (mem_portAll p)

theorem respond_eng_keeps (s : State) (p : Port) (r : Response) (q : Port) :
    ((s.respond p r).eng q).state = (s.eng q).state ∧ ((s.respond p r).eng q).requests = (s.eng q).requests ∧
      ∀ x ∈ (s.eng q).responses, x ∈ ((s.respond p r).eng q).responses := by
  rw [respond_eng]
  split
  · subst_vars
    exact ⟨rfl, rfl, fun x hx => List.mem_append_left _ hx⟩
  · exact ⟨rfl, rfl, fun x hx => hx⟩

theorem foldl_respond_keeps (l : List Port) (r : Response) (s : State) (q : Port) :
    ((l.foldl (fun u p => u.respond p r) s).eng q).state = (s.eng q).state ∧
      ((l.foldl (fun u p => u.respond p r) s).eng q).requests = (s.eng q).requests ∧
      ∀ x ∈ (s.eng q).responses, x ∈ ((l.foldl (fun u p => u.respond p r) s).eng q).responses := by
  induction l generalizing s with
  | nil => exact ⟨rfl, rfl, fun x hx => hx⟩
  | cons p l ih =>
    obtain ⟨hstate, hreq, hresp⟩ := respond_eng_keeps s p r q
    obtain ⟨ihstate, ihreq, ihresp⟩ := ih (s.respond p r)
    exact ⟨ihstate.trans hstate, ihreq.trans hreq, fun x hx => ihresp x (hresp x hx)⟩

/-- Every port of the list has been answered. -/
theorem foldl_respond_mem {l : List Port} {q : Port} (hq : q ∈ l) (r : Response) (s : State) :
    r ∈ ((l.foldl (fun u p => u.respond p r) s).eng q).responses := by
  induction l generalizing s with
  | nil => cases hq
  | cons p l ih =>
    rcases List.mem_cons.mp hq with rfl | hq
    · exact (foldl_respond_keeps l r _ q).2.2 r (by simp)
    · exact ih hq _

/-- The end of an event leaves the state and the request queue of every port engine. -/
theorem settle_eng_keeps (s : State) (p : Port) :
    (s.settle.eng p).state = (s.eng p).state ∧ (s.settle.eng p).requests = (s.eng p).requests := by
  obtain ⟨t, ht, he⟩ := settle_eng s p
  obtain ⟨⟨_, _, _, hrate⟩, -, -⟩ := applyRate_keeps t p p
  have hchoose (u : State) : ((u.chooseFrame p).eng p).state = (u.eng p).state ∧
      ((u.chooseFrame p).eng p).requests = (u.eng p).requests := by
    have hrem (i : Src) : (u.removeRef i p).eng p = u.eng p := by
      obtain ⟨-, -, -, -, he, -⟩ := offDelivery_fields (removeRef_offDelivery u i p)
      simp only [State.eng, he]
    unfold State.chooseFrame State.takeHead
    dsimp only
    repeat' split
    all_goals simp [State.beginFrame, hrem]
  obtain ⟨h1, h2⟩ := hchoose (t.applyRate p)
  rw [he, ← ht]
  exact ⟨h1.trans (by rw [hrate]), h2.trans (by rw [hrate])⟩

/-! ### POLL_END (R39) -/

/-- POLL_END of a poll in flight: v is the state in which its outcome o has been handed on. -/
theorem exec_pollEnd {s : State} {g : InFlight} {e : PollEntry} {reply : Option FieldReply} {o : BusOutcome}
    (hb : s.bus.state = .inFlight g) (hw : g.work = .poll e) (ho : busOutcome g.window reply = o) :
    ∃ v u, exec (.pollEnd reply) s = .next u.settle ∧ v = (s.endTransaction g .work o.ack).handOutcome g e.src o ∧
      u = e.requesters.toList.foldl (fun u p => u.respond p (v.pollAnswer e.src o)) v := by
  refine ⟨_, _, ?_, rfl, rfl⟩
  show execPollEnd reply s = _
  unfold execPollEnd
  rw [hb]
  simp only [hw, ho]

/-- What POLL_END leaves whatever its outcome o: u is the event before its end, and in v the outcome has been handed
on. -/
theorem pollEnd_leaves {s v u : State} {g : InFlight} {e : PollEntry} {o : BusOutcome} {r : Response}
    (hv : v = (s.endTransaction g .work o.ack).handOutcome g e.src o)
    (hu : u = e.requesters.toList.foldl (fun u p => u.respond p r) v) :
    u.settle.bus = { s.bus with state := .gap g.rate, prev := .work, ack := o.ack } ∧ Alike v u ∧
      (∀ q, (u.settle.eng q).state = (s.eng q).state ∧ (u.settle.eng q).requests = (s.eng q).requests) ∧
      (∀ q, e.requesters.has q = true → u.settle.owes q r) := by
  have hbus : u.bus = v.bus := by
    rw [hu]
    exact (busPart_fields (foldl_busPart (op := fun u p => u.respond p r) (fun t p => rfl) _ v)).2
  have heng (q : Port) : v.eng q = s.eng q := by
    simp only [State.eng, hv, handOutcome_engines]
    rfl
  refine ⟨?_, ?_, fun q => ?_, fun q hq => settle_owes ?_⟩
  · rw [settle_bus, hbus, hv, handOutcome_bus]
    rfl
  · rw [hu]
    exact foldl_respond_alike _ r v
  · obtain ⟨hs1, hr1⟩ := settle_eng_keeps u q
    obtain ⟨hs2, hr2, -⟩ := foldl_respond_keeps e.requesters.toList r v q
    rw [← hu] at hs2 hr2
    rw [hs1, hr1, hs2, hr2, heng]
    exact ⟨rfl, rfl⟩
  · rw [hu]
    exact foldl_respond_mem ((PortSet.mem_toList _ q).mpr hq) r v

theorem pollEnd_good {s : State} {g : InFlight} {e : PollEntry} (hb : s.bus.state = .inFlight g)
    (hw : g.work = .poll e) (ha : g.afterClearAll = false) {lead : Nat} {report : BitVec 16}
    (hlead : lead ≤ g.window.toNat) :
    ∃ t, exec (.pollEnd (some ⟨lead, report, fieldCheck report⟩)) s = .next t ∧
      t.bus = { s.bus with state := .gap g.rate, prev := .work, ack := .accepted } ∧
      ((s.src e.src).state ≠ .disabled → (t.src e.src).reported = report &&& 0x7FFF) ∧
      (Settled s → SourcesOk s → ReportArrives s t e.src (report &&& 0x7FFF)) ∧
      (∀ q, (t.eng q).state = (s.eng q).state ∧ (t.eng q).requests = (s.eng q).requests) ∧
      (∀ q, e.requesters.has q = true → t.owes q
        ⟨0x23, .ok, [byteOf e.src.num] ++ le16 (report &&& 0x7FFF) ++ [byteOf (t.src e.src).reach.code]⟩) := by
  obtain ⟨v, u, hrun, hv, hu⟩ := exec_pollEnd hb hw (busOutcome_good hlead report)
  obtain ⟨hbus, halike, heng, howes⟩ := pollEnd_leaves hv hu
  rw [handOutcome_replied ha] at hv
  have hsrc : u.settle.src e.src = v.src e.src := (settle_src u _).trans (halike.src _)
  refine ⟨_, hrun, hbus, fun hon => ?_, fun hs ho => ?_, heng, fun q hq => ?_⟩
  · rw [hsrc, hv]
    exact (reportArrival_src (s := s.endTransaction g .work .accepted) hon _).1
  · refine reportArrival_settled hs ho (endTransaction_alike s g .work .accepted) (Alike.latching ?_)
    rw [hv] at halike
    exact halike
  · have := howes q hq
    rw [hsrc]
    exact this

theorem pollEnd_noReply {s : State} {g : InFlight} {e : PollEntry} (hb : s.bus.state = .inFlight g)
    (hw : g.work = .poll e) (ha : g.afterClearAll = false) {reply : Option FieldReply}
    (hf : failedReply g.window reply) :
    ∃ t, exec (.pollEnd reply) s = .next t ∧
      t.bus = { s.bus with state := .gap g.rate, prev := .work, ack := failedAck g.window reply } ∧
      (Settled s → SourcesOk s → FailedExchange s t e.src) ∧
      (∀ q, (t.eng q).state = (s.eng q).state ∧ (t.eng q).requests = (s.eng q).requests) ∧
      (∀ q, e.requesters.has q = true → t.owes q ⟨0x23, .noReply, [byteOf e.src.num]⟩) := by
  obtain ⟨v, u, hrun, hv, hu⟩ := exec_pollEnd hb hw rfl
  obtain ⟨hbus, halike, heng, howes⟩ := pollEnd_leaves hv hu
  have hout := busOutcome_failed hf
  have hanswer : v.pollAnswer e.src (busOutcome g.window reply) = ⟨0x23, .noReply, [byteOf e.src.num]⟩ := by
    rcases hout with h | h <;> rw [h] <;> rfl
  rw [hanswer] at howes
  rw [busOutcome_failed_ack hf] at hbus
  refine ⟨_, hrun, hbus, fun hs ho => ?_, heng, howes⟩
  rw [handOutcome_failed ha hout] at hv
  rw [hv] at halike
  exact failedExchange_settled hs ho (endTransaction_alike s g .work _) halike

/-- Settles O16: the slots by `slots_noReply` and `slots_reply`, POLL_END by its outcome. -/
theorem pollIsAnsweredAtEveryRequester : Obligations.PollIsAnsweredAtEveryRequester := by
  unfold Obligations.PollIsAnsweredAtEveryRequester
  refine ⟨fun u i hwork => ⟨_, rfl, ?_⟩, fun s g e hb hw ha =>
    ⟨fun lead report hlead => pollEnd_good hb hw ha hlead, fun reply hf => pollEnd_noReply hb hw ha hf⟩⟩
  have hsent : u.work.drivenSlots.map some = [some false, some true, some true, some false] ++
      [5, 4, 3, 2, 1, 0].map (fun k => some (i.num.testBit k)) := by
    rw [← msbBits_address]
    rcases hwork with h | ⟨requesters, h⟩ <;> rw [h] <;> simp [BusWork.drivenSlots]
  rw [← hsent]
  exact ⟨slots_noReply u (by simp), fun x hx => slots_noReply u (by simpa using hx), fun x hx => slots_reply hx⟩

end Sys2Proof.Machine

/-! CLEAR_END: the slots of a clear, and clear completion (O17). -/

namespace Sys2Proof.Machine

/-! ### The slots of a clear (R22, R30) -/

/-- The clear set is driven with the slot of code 15 at 0. -/
theorem msbBits_clearSet (codes : CodeSet) : (msbBits (CodeSet.less15 codes)).map some = some false ::
    [14, 13, 12, 11, 10, 9, 8, 7, 6, 5, 4, 3, 2, 1, 0].map (fun k => some (codes.getLsbD k)) := by
  have hbit (k : Nat) (hk : k < 15) : (CodeSet.less15 codes).getLsbD k = codes.getLsbD k := by
    have hmask : ∀ k < 15, (0x7FFF : BitVec 16).getLsbD k = true := by decide
    unfold CodeSet.less15
    rw [BitVec.getLsbD_and, hmask k hk, Bool.and_true]
  have h15 : (CodeSet.less15 codes).getLsbD 15 = false := by
    unfold CodeSet.less15
    rw [BitVec.getLsbD_and, show (0x7FFF : BitVec 16).getLsbD 15 = false by decide, Bool.and_false]
  rw [msbBits_driven]
  refine congrArg₂ List.cons (congrArg some h15) (List.map_congr_left fun k hk => congrArg some (hbit k ?_))
  revert k
  decide

theorem drivenSlots_clear (c : ClearEntry) (discarded : Bool) : (BusWork.clear c discarded).drivenSlots.map some =
    [some false, some false, some true, some true] ++
      [5, 4, 3, 2, 1, 0].map (fun k => some (c.src.num.testBit k)) ++
      some false :: [14, 13, 12, 11, 10, 9, 8, 7, 6, 5, 4, 3, 2, 1, 0].map (fun k => some (c.codes.getLsbD k)) ++
      [7, 6, 5, 4, 3, 2, 1, 0].map (fun k => some ((fieldCheck (c.codes &&& 0x7FFF)).getLsbD k)) := by
  unfold BusWork.drivenSlots
  rw [List.map_append, List.map_append, List.map_append, msbBits_address, msbBits_clearSet, msbBits_driven]
  rfl

/-! ### Clear completion (R60) -/

/-- The source of a clear that completes, before a notice opens again: QUIET, its arrears taken (R60). -/
def State.cleared (s : State) (i : Src) : State := s.setSrc i { s.src i with arrears := 0, state := .quiet }

/-- The conditions with which a source opens again after its clear (R60). -/
def State.leftOver (s : State) (i : Src) (report : CodeSet) : CodeSet :=
  (report &&& (s.cfg i).mask) ||| (s.src i).arrears ||| heldSet (s.src i).code15

theorem clearCompletion_eq (s : State) (i : Src) (report : CodeSet) : s.clearCompletion i report =
    if s.leftOver i report = 0 then s.cleared i else (s.cleared i).openNotice i (s.leftOver i report) := rfl

theorem cleared_src (s : State) (i : Src) :
    (s.cleared i).src i = { s.src i with arrears := 0, state := .quiet } := by
  unfold State.cleared
  rw [State.src_setSrc, if_pos rfl]

theorem cleared_sourceStep (s : State) (i : Src) : SourceStep s (s.cleared i) i := setSrc_sourceStep s i _

theorem clearCompletion_engines (s : State) (i : Src) (report : CodeSet) :
    (s.clearCompletion i report).engines = s.engines :=
  (offSources_fields (clearCompletion_offSources s i report)).2.2.2.1

theorem clearCompletion_bus (s : State) (i : Src) (report : CodeSet) : (s.clearCompletion i report).bus = s.bus :=
  (busPart_fields (clearCompletion_busPart s i report)).2

theorem clearCompletion_sourceStep (s : State) (i : Src) (report : CodeSet) :
    SourceStep s (s.clearCompletion i report) i := by
  rw [clearCompletion_eq]
  exact (cleared_sourceStep s i).trans (reopening_keeps (s.cleared i) i _).1

/-- The runtime fields after a clear completion: the arrears are empty, and a notice that opens sets state and count. -/
theorem clearCompletion_src (s : State) (i : Src) (report : CodeSet) :
    ((s.clearCompletion i report).src i).reported = (s.src i).reported ∧
      ((s.clearCompletion i report).src i).reach = (s.src i).reach ∧
      ((s.clearCompletion i report).src i).failures = (s.src i).failures ∧
      ((s.clearCompletion i report).src i).code15 = (s.src i).code15 ∧
      ((s.clearCompletion i report).src i).arrears = 0 := by
  rw [clearCompletion_eq]
  split
  · rw [cleared_src]
    exact ⟨rfl, rfl, rfl, rfl, rfl⟩
  · rw [openNotice_src, cleared_src]
    exact ⟨rfl, rfl, rfl, rfl, rfl⟩

/-- What a clear completion of a CLOSING source leaves in an event that began in s with every transmitter at rest; v is
the state in which it is taken. -/
theorem clearCompletion_settled {s v : State} {i : Src} {report conds : CodeSet} (hs : Settled s) (ho : SourcesOk s)
    (hclosing : (s.src i).state = .closing) (hv : SourceStep s v i) (hn : v.notices = s.notices)
    (hd : v.delivery = s.delivery) (hop : (v.src i).openings = (s.src i).openings)
    (hconds : v.leftOver i report = conds) :
    TouchesOnly s (v.clearCompletion i report).settle i ∧
      (conds ≠ 0 → Opened s (v.clearCompletion i report).settle i conds) ∧
      (conds = 0 → ((v.clearCompletion i report).settle.src i).state = .quiet ∧
        (v.clearCompletion i report).settle.notices = s.notices ∧
        (v.clearCompletion i report).settle.delivery = s.delivery) := by
  have hnone : s.notice i = none := ho.notice_none (by simp [hclosing])
  have hstep := hv.trans (clearCompletion_sourceStep v i report)
  have hoffers : ∀ p, s.offerCount p ≤ (v.clearCompletion i report).offerCount p :=
    hstep.offerCount_le fun n p hsome => by
      rw [hnone] at hsome
      cases hsome
  have heq := clearCompletion_eq v i report
  rw [hconds] at heq
  refine ⟨hstep.touchesOnly hs hoffers, fun hne => ?_, fun h0 => ?_⟩
  · rw [if_neg hne] at heq
    have hopened := hv.trans (cleared_sourceStep v i)
    refine opened_of_openNotice hnone hopened.config hopened.portState (by rw [cleared_src]; exact hop) hopened.order
      (fun p => ?_) (heq ▸ settle_noticeStays _ i)
    show v.queue p = s.queue p
    simp only [State.queue, hd]
  · rw [if_pos h0] at heq
    obtain ⟨h1, h2⟩ := hstep.stands_at_end hs hoffers (by rw [heq]; exact hd)
    exact ⟨by rw [settle_src, heq, cleared_src], h1.trans (by rw [heq]; exact hn), h2⟩

/-! ### CLEAR_END (R35, R36) -/

/-- CLEAR_END of a clear in flight, by its outcome o. -/
theorem exec_clearEnd {s : State} {g : InFlight} {e : ClearEntry} {discarded : Bool} {reply : Option FieldReply}
    {o : BusOutcome} (hb : s.bus.state = .inFlight g) (hw : g.work = .clear e discarded)
    (ho : busOutcome g.window reply = o) : exec (.clearEnd reply) s = .next
      (if discarded = true then s.endTransaction g .work o.ack
      else if g.afterClearAll = true then (s.endTransaction g .work o.ack).handOutcome g e.src o
      else (s.endTransaction g .work o.ack).clearEffect e o).settle := by
  show execClearEnd reply s = _
  unfold execClearEnd
  rw [hb]
  simp only [hw, ho]

/-- Settles O17: the slots by `drivenSlots_clear`; a good reply is noted, and the clear completes with it. -/
theorem clearReplyCompletesTheClear : Obligations.ClearReplyCompletesTheClear := by
  unfold Obligations.ClearReplyCompletesTheClear
  refine ⟨fun u c discarded hwork => ⟨_, rfl, ?_⟩, ?_⟩
  · rw [← drivenSlots_clear c discarded, ← hwork]
    exact ⟨slots_noReply u (by simp), fun x hx => slots_reply hx⟩
  · intro s g e lead report conds hs ho hb hw ha hclosing hlead hconds
    have hended := endTransaction_alike s g .work .accepted
    have hrun := exec_clearEnd hb hw (busOutcome_good hlead report)
    rw [if_neg (by simp), if_neg (by simp [ha])] at hrun
    have heffect : (s.endTransaction g .work .accepted).clearEffect e (.replied (report &&& 0x7FFF)) =
        ((s.endTransaction g .work .accepted).noteReport e.src (report &&& 0x7FFF)).clearCompletion e.src
          (report &&& 0x7FFF) := if_pos hclosing
    have hnoted := (hended.noted e.src).noteReport (report &&& 0x7FFF)
    have hvsrc := noteReport_src (s.endTransaction g .work .accepted) e.src (report &&& 0x7FFF)
    have hbus : ((s.endTransaction g .work .accepted).noteReport e.src (report &&& 0x7FFF)).bus =
        { s.bus with state := .gap g.rate, prev := .work, ack := .accepted } := rfl
    have heng : ((s.endTransaction g .work .accepted).noteReport e.src (report &&& 0x7FFF)).engines = s.engines := rfl
    rw [show BusOutcome.ack (.replied (report &&& 0x7FFF)) = .accepted from rfl, heffect] at hrun
    generalize (s.endTransaction g .work .accepted).noteReport e.src (report &&& 0x7FFF) = v at *
    have hover : v.leftOver e.src (report &&& 0x7FFF) = conds := by
      have hcfg : v.cfg e.src = s.cfg e.src := by simp only [State.cfg, hnoted.step.config]
      have hcode : (v.src e.src).code15 = (s.src e.src).code15 := by rw [hvsrc, hended.src]
      unfold State.leftOver
      rw [hcfg, hnoted.arrears, hcode, hconds]
      unfold State.newConds heldSet
      ac_rfl
    obtain ⟨htouches, hopens, hrests⟩ :=
      clearCompletion_settled hs ho hclosing hnoted.step hnoted.notices hnoted.delivery hnoted.openings hover
    obtain ⟨hrep, hreach, hfail, hcode, harr⟩ := clearCompletion_src v e.src (report &&& 0x7FFF)
    refine ⟨_, hrun, ?_, ?_, ?_, ?_, ?_, ?_, htouches,
      linksKept_of_engines hs ((clearCompletion_engines v _ _).trans heng), hopens, hrests⟩
    · rw [settle_bus, clearCompletion_bus, hbus]
    · rw [settle_src, hrep, hvsrc]
    · rw [settle_src, hreach, hvsrc]
    · rw [settle_src, hfail, hvsrc]
    · rw [settle_src, harr]
    · rw [settle_src, hcode, hvsrc, hended.src]

end Sys2Proof.Machine

/-! CLEAR_END of a clear that failed (O18). -/

namespace Sys2Proof.Machine

/-! ### A failed exchange with a CLOSING source (R16, R17, R11) -/

/-- The runtime fields of a CLOSING source after a failed exchange. -/
def SourceRt.failedClosing (r : SourceRt) : SourceRt :=
  { r with
    failures := if r.failures < 3 then r.failures + 1 else r.failures
    reach := if r.failures = 2 then .unreachable else r.reach
    code15 := decide (r.failures = 2) || r.code15
    arrears := r.arrears ||| (if r.failures = 2 then 0x8000 else 0) }

/-- A failed exchange with a CLOSING source changes its runtime fields, and of the rest the latched codes alone. -/
theorem failedExchange_closing {s : State} {i : Src} (h : (s.src i).state = .closing) :
    (s.failedExchange i).src i = (s.src i).failedClosing ∧ (s.failedExchange i).notices = s.notices ∧
      (s.failedExchange i).delivery = s.delivery := by
  have hon : (s.src i).state ≠ .disabled := by simp [h]
  rcases Nat.lt_trichotomy (s.src i).failures 2 with hlt | h2 | hgt
  · rw [failedExchange_counted hon hlt, State.src_setSrc, if_pos rfl]
    refine ⟨?_, rfl, rfl⟩
    simp [SourceRt.failedClosing, show (s.src i).failures < 3 by omega, show ¬ (s.src i).failures = 2 by omega]
  · have hlost := losesSource_src s i
    have hstill : ((s.losesSource i).src i).state = .closing := by rw [hlost]; exact h
    rw [failedExchange_third hon h2, applyConditions_closing hstill, addArrears_src, hlost]
    refine ⟨?_, rfl, rfl⟩
    simp [SourceRt.failedClosing, h2, code15Set]
  · rw [failedExchange_kept (.inr hgt)]
    refine ⟨?_, rfl, rfl⟩
    simp [SourceRt.failedClosing, show ¬ (s.src i).failures < 3 by omega, show ¬ (s.src i).failures = 2 by omega]

/-- The third failure in a row of an enabled source, where no other was UNREACHABLE, latches UNREACHABLE at every port
(R17, R163). -/
theorem failedExchange_latched {s : State} {i : Src} (hon : (s.src i).state ≠ .disabled) (h2 : (s.src i).failures = 2)
    (hen : (s.cfg i).enabled = true) (hno : s.anyUnreachable = false) (p : Port) :
    ((s.failedExchange i).latched p).getLsbD 2 = true := by
  have hkept : LatchedKept (s.losesSource i) (s.failedExchange i) := by
    rw [failedExchange_third hon h2]
    exact (applyConditions_sourceStep _ i _).latched
  exact hkept.getLsbD (losesSource_latched hen hno p)

theorem failedExchange_engines (s : State) (i : Src) : (s.failedExchange i).engines = s.engines :=
  (offSources_fields (failedExchange_offSources s i)).2.2.2.1

/-- A clear that is given up completes with an empty report: what opens again is the arrears and code 15 if held. -/
theorem leftOver_failedClosing {s v : State} {i : Src} (h : v.src i = (s.src i).failedClosing) :
    v.leftOver i 0 = (s.src i).arrears ||| (if (s.src i).failures = 2 then 0x8000 else 0) |||
      (if (s.src i).code15 then 0x8000 else 0) := by
  unfold State.leftOver heldSet
  rw [h]
  by_cases h2 : (s.src i).failures = 2
  · cases hc : (s.src i).code15 <;> simp [SourceRt.failedClosing, h2, hc, code15Set, BitVec.or_assoc]
  · cases hc : (s.src i).code15 <;> simp [SourceRt.failedClosing, h2, hc, code15Set]

/-! ### The end of a failed clear (R37, R62) -/

/-- A failed clear of a CLOSING source is appended again, or at its third attempt completes with an empty report. -/
theorem clearFailed_closing {s : State} {e : ClearEntry} (h : (s.src e.src).state = .closing) :
    s.clearFailed e = if e.attempts < 2 then (s.failedExchange e.src).setBus { s.bus with
        clearList := s.bus.clearList ++ [{ e with attempts := e.attempts + 1 }] }
      else (s.failedExchange e.src).clearCompletion e.src 0 := by
  have hbus := (busPart_fields (failedExchange_busPart s e.src)).2
  have hstill : ((s.failedExchange e.src).src e.src).state = .closing := by
    rw [(failedExchange_closing h).1]
    exact h
  unfold State.clearFailed
  dsimp only
  rw [hbus, if_pos hstill]

/-- What of the runtime fields and the latched codes the two ends of a failed clear have in common: v is the failed
exchange, and u the event before its end. -/
structure ClearFails (s v u : State) (i : Src) : Prop where
  exchanged : v.src i = (s.src i).failedClosing
  latched : LatchedKept v u
  reported : (u.src i).reported = (v.src i).reported
  reach : (u.src i).reach = (v.src i).reach
  failures : (u.src i).failures = (v.src i).failures
  code15 : (u.src i).code15 = (v.src i).code15
  engines : u.engines = s.engines

/-- CLEAR_END of a failed clear that is not discarded, for a CLOSING source. -/
theorem exec_clearEnd_failed {s : State} {g : InFlight} {e : ClearEntry} {reply : Option FieldReply}
    (hb : s.bus.state = .inFlight g) (hw : g.work = .clear e false) (ha : g.afterClearAll = false)
    (hclosing : (s.src e.src).state = .closing) (hf : failedReply g.window reply) {v : State}
    (hv : v = (s.endTransaction g .work (failedAck g.window reply)).failedExchange e.src) :
    ∃ u, exec (.clearEnd reply) s = .next u.settle ∧ ClearFails s v u e.src ∧
      (e.attempts < 2 → u = v.setBus { s.bus with
        state := .gap g.rate, prev := .work, ack := failedAck g.window reply,
        clearList := s.bus.clearList ++ [{ e with attempts := e.attempts + 1 }] }) ∧
      (2 ≤ e.attempts → u = v.clearCompletion e.src 0) := by
  have hrun := exec_clearEnd hb hw rfl (reply := reply)
  rw [if_neg (by simp), if_neg (by simp [ha]), busOutcome_failed_ack hf] at hrun
  have heffect : (s.endTransaction g .work (failedAck g.window reply)).clearEffect e (busOutcome g.window reply) =
      (s.endTransaction g .work (failedAck g.window reply)).clearFailed e := by
    rcases busOutcome_failed hf with h | h <;> rw [h] <;> rfl
  have hx : v.src e.src = (s.src e.src).failedClosing := by
    rw [hv]
    exact (failedExchange_closing (s := s.endTransaction g .work (failedAck g.window reply)) hclosing).1
  have heng : v.engines = s.engines := by
    rw [hv, failedExchange_engines]
    rfl
  rw [heffect, clearFailed_closing (s := s.endTransaction g .work (failedAck g.window reply)) hclosing, ← hv] at hrun
  refine ⟨_, hrun, ?_, fun h => if_pos h, fun h => if_neg (by omega)⟩
  split
  · exact ⟨hx, .of_attention rfl, rfl, rfl, rfl, rfl, heng⟩
  · obtain ⟨hrep, hreach, hfail, hcode, -⟩ := clearCompletion_src v e.src 0
    exact ⟨hx, (clearCompletion_sourceStep v e.src 0).latched, hrep, hreach, hfail, hcode,
      (clearCompletion_engines v e.src 0).trans heng⟩

/-- Settles O18: what both ends have in common by `ClearFails`; a clear that is sent again leaves a failed exchange, and
one that is given up a clear completion after it. -/
theorem failedClearIsRetriedThenGivenUp : Obligations.FailedClearIsRetriedThenGivenUp := by
  unfold Obligations.FailedClearIsRetriedThenGivenUp
  intro s g e reply arrears conds hs ho hb hw ha hclosing hf harr hconds
  have hended := endTransaction_alike s g .work (failedAck g.window reply)
  have hstill : ((s.endTransaction g .work (failedAck g.window reply)).src e.src).state = .closing := hclosing
  have hvstep := (hended.sourceStep e.src).trans (failedExchange_sourceStep _ e.src)
  obtain ⟨-, hvn, hvd⟩ := failedExchange_closing hstill
  have hvbus := (busPart_fields
    (failedExchange_busPart (s.endTransaction g .work (failedAck g.window reply)) e.src)).2
  obtain ⟨u, hrun, hu, hretry, hgive⟩ := exec_clearEnd_failed hb hw ha hclosing hf rfl
  have hfailed {t : State} (h : Alike ((s.endTransaction g .work (failedAck g.window reply)).failedExchange e.src) t) :
      FailedExchange s t.settle e.src := failedExchange_settled hs ho hended h
  have hlatched (h2 : (s.src e.src).failures = 2) := failedExchange_latched
    (s := s.endTransaction g .work (failedAck g.window reply)) (i := e.src) (by rw [hstill]; simp) h2
  generalize (s.endTransaction g .work (failedAck g.window reply)).failedExchange e.src = v at *
  have hsrc := settle_src u e.src
  have hover : v.leftOver e.src 0 = conds := by rw [leftOver_failedClosing hu.exchanged, hconds, harr]
  have hgiven := clearCompletion_settled hs ho hclosing hvstep hvn hvd (by rw [hu.exchanged]; rfl) hover
  refine ⟨_, hrun, ?_, fun h2 => ⟨?_, ?_, fun hen hno p => ?_⟩, fun h2 => ⟨?_, ?_⟩, ?_, ?_,
    linksKept_of_engines hs hu.engines, fun h => ?_, fun h => ?_⟩
  · rw [hsrc, hu.failures, hu.exchanged]
    rfl
  · rw [hsrc, hu.reach, hu.exchanged]
    exact if_pos h2
  · rw [hsrc, hu.code15, hu.exchanged]
    simp [SourceRt.failedClosing, h2]
  · exact (hu.latched.trans (settle_latchedKept u)).getLsbD (hlatched h2 hen hno p)
  · rw [hsrc, hu.reach, hu.exchanged]
    exact if_neg h2
  · rw [hsrc, hu.code15, hu.exchanged]
    simp [SourceRt.failedClosing, h2]
  · rw [hsrc, hu.reported, hu.exchanged]
    rfl
  · by_cases h : e.attempts < 2
    · rw [hretry h]
      exact (hfailed (setBus_alike v _)).touches
    · rw [hgive (by omega)]
      exact hgiven.1
  · have hx : u.src e.src = (s.src e.src).failedClosing := by
      rw [hretry h]
      exact hu.exchanged
    have halike : Alike v u := by
      rw [hretry h]
      exact setBus_alike v _
    refine ⟨hfailed halike, by rw [hsrc, hx]; exact hclosing, by rw [hsrc, hx, harr]; rfl, ?_, ?_⟩
    · have hnone : s.notice e.src = none := ho.notice_none (by simp [hclosing])
      have hstep := hvstep.trans (halike.sourceStep e.src)
      obtain ⟨h1, -⟩ := hstep.stands_at_end hs (hstep.offerCount_le fun n p hn => by rw [hnone] at hn; cases hn)
        (halike.delivery.trans hvd)
      exact h1.trans (halike.notices.trans hvn)
    · rw [settle_bus, hretry h]
      rfl
  · obtain ⟨-, hopens, hrests⟩ := hgiven
    rw [← hgive h] at hopens hrests
    refine ⟨?_, ?_, hopens, fun h0 => ?_⟩
    · rw [hsrc, hgive h]
      exact (clearCompletion_src v e.src 0).2.2.2.2
    · rw [settle_bus, hgive h, clearCompletion_bus, hvbus]
      rfl
    · obtain ⟨hq, hn, -⟩ := hrests h0
      exact ⟨hq, hn⟩

end Sys2Proof.Machine

/-! Outcomes that are taken after CLEAR_ALL, and discarded clears (O19). -/

namespace Sys2Proof.Machine

/-! ### What an overtaken outcome leaves (R19) -/

theorem setSrc_src (s : State) (i : Src) : s.setSrc i (s.src i) = s := by
  have hset : s.sources.rt.set i.val (s.sources.rt.get i) i.isLt = s.sources.rt := Vector.set_getElem_self _
  unfold State.setSrc State.src
  rw [hset]

theorem outcomeAfterClearAll_overtaken {s : State} {i : Src} {good : Bool} (h : good = false → (s.src i).failures < 3) :
    s.outcomeAfterClearAll i good = s.setSrc i ((s.src i).overtaken good) := by
  unfold State.outcomeAfterClearAll SourceRt.overtaken
  dsimp only
  by_cases hd : (s.src i).state = .disabled
  · rw [if_pos hd, if_pos hd, setSrc_src]
  · rw [if_neg hd, if_neg hd]
    cases good with
    | true => rfl
    | false => exact if_pos (h rfl)

theorem handOutcome_overtaken_good {s : State} {g : InFlight} (h : g.afterClearAll = true) (i : Src) (r : CodeSet) :
    s.handOutcome g i (.replied r) = s.setSrc i ((s.src i).overtaken true) := by
  rw [← outcomeAfterClearAll_overtaken (by simp)]
  exact if_pos h

theorem handOutcome_overtaken_failed {s : State} {g : InFlight} {i : Src} {o : BusOutcome} (h : g.afterClearAll = true)
    (ho : o = .badCheck ∨ o = .noReply) (h3 : (s.src i).failures < 3) :
    s.handOutcome g i o = s.setSrc i ((s.src i).overtaken false) := by
  rw [← outcomeAfterClearAll_overtaken (fun _ => h3)]
  rcases ho with rfl | rfl <;> exact if_pos h

/-- With every transmitter at rest an event that changes the bus and one source's runtime fields has nothing to send. -/
theorem settle_setBus_setSrc {s : State} (hs : Settled s) (b : FieldBus) (i : Src) (r : SourceRt) :
    ((s.setBus b).setSrc i r).settle = (s.setBus b).setSrc i r :=
  settle_of_quiet (hs.congr (t := (s.setBus b).setSrc i r) rfl rfl (fun _ => rfl) rfl).quiet

/-! ### CLEAR_END (R35, R45) -/

/-- A discarded clear is handed to nobody (R35). -/
theorem clearEnd_discarded {s : State} {g : InFlight} {e : ClearEntry} (hs : Settled s)
    (hb : s.bus.state = .inFlight g) (hw : g.work = .clear e true) (reply : Option FieldReply) :
    exec (.clearEnd reply) s = .next (s.setBus { s.bus with
      state := .gap g.rate, prev := .work, ack := (busOutcome g.window reply).ack }) := by
  rw [exec_clearEnd hb hw rfl, if_pos rfl]
  exact congrArg Host.Outcome.next (settle_setBus hs _)

/-- A clear in flight when CLEAR_ALL was taken sets reach and failure run alone (R19, R45). -/
theorem clearEnd_overtaken {s : State} {g : InFlight} {e : ClearEntry} {o : BusOutcome} {good : Bool} (hs : Settled s)
    (hb : s.bus.state = .inFlight g) (hw : g.work = .clear e false) (ha : g.afterClearAll = true)
    {reply : Option FieldReply} (ho : busOutcome g.window reply = o)
    (hhand : (s.endTransaction g .work o.ack).handOutcome g e.src o =
      (s.endTransaction g .work o.ack).setSrc e.src ((s.src e.src).overtaken good)) :
    exec (.clearEnd reply) s = .next ((s.setBus { s.bus with
      state := .gap g.rate, prev := .work, ack := o.ack }).setSrc e.src ((s.src e.src).overtaken good)) := by
  rw [exec_clearEnd hb hw ho, if_neg (by simp), if_pos ha, hhand]
  exact congrArg Host.Outcome.next (settle_setBus_setSrc hs _ _ _)

/-! ### POLL_END and BID_ROUND_END (R19, R26, R45) -/

/-- A poll in flight when CLEAR_ALL was taken has no requesters left. -/
theorem pollEnd_overtaken {s : State} {g : InFlight} {i : Src} {o : BusOutcome} {good : Bool} (hs : Settled s)
    (hb : s.bus.state = .inFlight g) (hw : g.work = .poll ⟨i, PortSet.empty⟩)
    {reply : Option FieldReply} (ho : busOutcome g.window reply = o)
    (hhand : (s.endTransaction g .work o.ack).handOutcome g i o =
      (s.endTransaction g .work o.ack).setSrc i ((s.src i).overtaken good)) :
    exec (.pollEnd reply) s = .next ((s.setBus { s.bus with
      state := .gap g.rate, prev := .work, ack := o.ack }).setSrc i ((s.src i).overtaken good)) := by
  obtain ⟨v, u, hrun, hv, hu⟩ := exec_pollEnd hb hw ho
  have hnobody : PortSet.empty.toList = [] := by decide
  rw [hnobody, List.foldl_nil, hv] at hu
  rw [hrun, hu, hhand]
  exact congrArg Host.Outcome.next (settle_setBus_setSrc hs _ _ _)

theorem bidRoundEnd_overtaken_won {s : State} {g : InFlight} {i : Src} {address : BitVec 6} {report : BitVec 16}
    (hs : Settled s) (hb : s.bus.state = .inFlight g) (hw : g.work = .bid) (ha : g.afterClearAll = true)
    (hi : i.isDirect = false) (hn : address.toNat = i.num) :
    exec (.bidRoundEnd address report (fieldCheck report)) s = .next ((s.setBus { s.bus with
      state := .gap g.rate, prev := .bid, ack := .accepted, bidRun := 0 }).setSrc i ((s.src i).overtaken true)) := by
  have hhand := handOutcome_overtaken_good (s := s.endTransaction g .bid .accepted) ha i (report &&& 0x7FFF)
  have heffect : (s.endTransaction g .bid .accepted).bidEffect g (.won i (report &&& 0x7FFF)) =
      (s.setBus { s.bus with state := .gap g.rate, prev := .bid, ack := .accepted, bidRun := 0 }).setSrc i
        ((s.src i).overtaken true) := by
    unfold State.bidEffect
    dsimp only
    rw [hhand]
    rfl
  rw [exec_bidRoundEnd hb hw, bidOutcome_won hi hn]
  exact congrArg Host.Outcome.next ((congrArg State.settle heffect).trans (settle_setBus_setSrc hs _ _ _))

/-- A failing bid round adds 1 to a bid-failure run below 4, and leaves the last acknowledge slot and kind (R27). -/
theorem bidFailed_run (s : State) : s.bidFailed.bus.ack = s.bus.ack ∧ s.bidFailed.bus.prev = s.bus.prev ∧
    (s.bus.bidRun < 4 → s.bidFailed.bus.bidRun = s.bus.bidRun + 1) :=
  ⟨rfl, rfl, fun h => if_pos h⟩

theorem bidRoundEnd_overtaken_garbled {s : State} {g : InFlight} {i : Src} {address : BitVec 6} {report : BitVec 16}
    {check : BitVec 8} (hs : Settled s) (hb : s.bus.state = .inFlight g) (hw : g.work = .bid)
    (ha : g.afterClearAll = true) (hi : i.isDirect = false) (hn : address.toNat = i.num)
    (hc : check ≠ fieldCheck report) (h3 : (s.src i).failures < 3) :
    exec (.bidRoundEnd address report check) s = .next
      ((s.endTransaction g .bid .refused).setSrc i ((s.src i).overtaken false)).bidFailed := by
  have hhand := handOutcome_overtaken_failed (s := s.endTransaction g .bid .refused) (i := i) ha (.inl rfl) h3
  generalize hu : (s.endTransaction g .bid .refused).setSrc i ((s.src i).overtaken false) = u
  have hquiet : u.bidFailed.settle = u.bidFailed := by
    rw [← hu]
    exact settle_of_quiet (hs.congr rfl rfl (fun _ => rfl) rfl).quiet
  rw [exec_bidRoundEnd hb hw, bidOutcome_garbled hi hn hc]
  unfold State.bidEffect BidOutcome.ack
  simp only [hhand]
  rw [← hquiet, ← hu]
  rfl

/-- Settles O19, by the kind of the transaction and by its outcome. -/
theorem overtakenClearsAreNotCompleted : Obligations.OvertakenClearsAreNotCompleted := by
  unfold Obligations.OvertakenClearsAreNotCompleted
  refine ⟨fun s g e discarded hs hb hw => ⟨fun lead report bus hlead hbus => ⟨fun hd => ?_, fun hd ha hon => ?_⟩,
    fun reply bus hf hbus => ⟨fun hd => ?_, fun hd ha hon h3 => ?_⟩⟩,
    fun u k i hu hb ha => ⟨fun hw => ⟨fun lead report hlead => ?_, fun reply hf h3 => ?_⟩,
      fun address report hw hi hn => ⟨bidRoundEnd_overtaken_won hu hb hw ha hi hn, fun check hc h3 =>
        ⟨_, bidRoundEnd_overtaken_garbled hu hb hw ha hi hn hc h3, rfl, rfl, rfl, rfl, ?_⟩⟩⟩⟩
  · subst hd hbus
    rw [clearEnd_discarded hs hb hw, busOutcome_good hlead]
    rfl
  · subst hd hbus
    have hrun := clearEnd_overtaken hs hb hw ha (busOutcome_good hlead report)
      (handOutcome_overtaken_good (s := s.endTransaction g .work .accepted) ha e.src _)
    unfold SourceRt.overtaken at hrun
    rw [if_neg hon, if_pos rfl] at hrun
    exact hrun
  · subst hd hbus
    rw [clearEnd_discarded hs hb hw, busOutcome_failed_ack hf]
  · subst hd hbus
    have hrun := clearEnd_overtaken hs hb hw ha rfl (handOutcome_overtaken_failed
      (s := s.endTransaction g .work (busOutcome g.window reply).ack) (i := e.src) ha (busOutcome_failed hf) h3)
    unfold SourceRt.overtaken at hrun
    rw [if_neg hon, if_neg (by simp), busOutcome_failed_ack hf] at hrun
    exact hrun
  · exact pollEnd_overtaken hu hb hw (busOutcome_good hlead report)
      (handOutcome_overtaken_good (s := u.endTransaction k .work .accepted) ha i _)
  · have hrun := pollEnd_overtaken hu hb hw rfl (handOutcome_overtaken_failed
      (s := u.endTransaction k .work (busOutcome k.window reply).ack) (i := i) ha (busOutcome_failed hf) h3)
    rw [busOutcome_failed_ack hf] at hrun
    exact hrun
  · exact bidFailed_run ((u.endTransaction k .bid .refused).setSrc i ((u.src i).overtaken false))

end Sys2Proof.Machine

/-! POLL (O39). -/

namespace Sys2Proof.Machine

/-! ### How a POLL runs -/

/-- A frame that leaves the request queue leaves every transmitter at rest. -/
theorem popped_settled {s : State} (hs : Settled s) (p : Port) (rest : List Frame) : Settled (s.popped p rest) where
  live := hs.live
  quiet q := by
    unfold State.popped
    by_cases hq : p = q
    · subst hq
      have heng : (s.setEng p { s.eng p with requests := rest }).eng p = { s.eng p with requests := rest } := by
        rw [State.eng_setEng, if_pos rfl]
      have htake : (s.setEng p { s.eng p with requests := rest }).canTakeHead p = s.canTakeHead p := by
        unfold State.canTakeHead
        rw [heng]
        rfl
      unfold PortQuiet
      rw [heng, htake]
      exact hs.quiet p
    · exact quiet_of_eng (s := s) rfl rfl rfl (by rw [State.eng_setEng, if_neg hq]) (hs.quiet q)

theorem running_of_admitted {s : State} {p : Port} {k : ReqKind} {f : Frame} (h : s.decodeCheck p k f = none)
    (hk : k.inScanning = false) : s.stage = .running := by
  have hlen := lengthOk_of_admitted h
  unfold State.decodeCheck at h
  by_contra hr
  simp [hlen, hr, hk] at h

theorem poll_payload {f : Frame} (h : lengthOk .poll f = true) : [f.byte 0] = f.payload := by
  obtain ⟨head, payload⟩ := f
  have hlen : payload.length = 1 := by simpa [lengthOk] using h
  obtain ⟨b, rfl⟩ := List.length_eq_one_iff.mp hlen
  rfl

/-- The answer to a POLL begins with the source that the request names. -/
theorem poll_answer {s : State} {p : Port} {f : Frame} {rest : List Frame} (hex : Executes s p .poll f rest)
    (st : Status) (data : List Byte) : f.answer st ([f.byte 0] ++ data) = ⟨0x23, st, f.payload ++ data⟩ := by
  rw [poll_payload (lengthOk_of_admitted hex.admitted)]
  exact congrArg (fun h => (⟨h, st, f.payload ++ data⟩ : Response)) hex.kind

theorem exec_poll {s : State} {p : Port} {f : Frame} {rest : List Frame} (hex : Executes s p .poll f rest) :
    exec (.poll p) s = .next ((s.popped p rest).decidePoll p f).settle :=
  congrArg Host.Outcome.next (execKind_of_executes hex rfl)

/-! ### POLL of a field source (R38) -/

theorem line_none_of_field {i : Src} (h : i.isDirect = false) : i.line = none := by
  have h48 := (isDirect_iff i).mp h
  unfold Src.num at h48
  unfold Src.line
  exact dif_neg (by omega)

theorem decidePoll_busy {s : State} {p : Port} {f : Frame} (hline : f.src.line = none)
    (hb : s.pollOutstanding p = true) : s.decidePoll p f = s.respond p (f.answer .busy [f.byte 0]) := by
  unfold State.decidePoll
  simp only [hline, hb, if_true]

theorem decidePoll_joins {s : State} {p : Port} {f : Frame} {i : Src} (hi : f.src = i) (hline : i.line = none)
    (hb : s.pollOutstanding p = false) (hq : ∃ e ∈ s.bus.pollQueue, e.src = i) :
    s.decidePoll p f = s.setBus { s.bus with pollQueue := s.bus.pollQueue.map (fun e =>
      if e.src = i then { e with requesters := e.requesters.insert p } else e) } := by
  have hany : s.bus.pollQueue.any (fun e => e.src == i) = true := by simpa using hq
  unfold State.decidePoll
  simp only [hi, hline, hb, hany, if_true, Bool.false_eq_true, if_false]

theorem decidePoll_appends {s : State} {p : Port} {f : Frame} {i : Src} (hi : f.src = i) (hline : i.line = none)
    (hb : s.pollOutstanding p = false) (hq : ∀ e ∈ s.bus.pollQueue, e.src ≠ i) : s.decidePoll p f =
      (s.setBus { s.bus with pollQueue := s.bus.pollQueue ++ [⟨i, PortSet.empty.insert p⟩] }).arbiter := by
  have hany : s.bus.pollQueue.any (fun e => e.src == i) = false := by simpa using hq
  unfold State.decidePoll
  simp only [hi, hline, hb, hany, Bool.false_eq_true, if_false]

/-- A poll that comes to an IDLE bus with nothing else to do is sent at once (R42, R43). -/
theorem arbiter_sendsPoll {s : State} {e : PollEntry} (hr : s.stage = .running) (hi : s.bus.state = .idle)
    (hc : s.bus.clearList = []) (hp : s.bus.pollQueue = []) (hf : s.bus.fatLow = false ∨ s.bus.suspended = true) :
    (s.setBus { s.bus with pollQueue := s.bus.pollQueue ++ [e] }).arbiter =
      s.setBus { s.bus with state := s.opening (.poll e) } := by
  have hno : ¬ (s.setBus { s.bus with pollQueue := s.bus.pollQueue ++ [e] }).BidDue := by
    rintro ⟨hlow, hopen, -⟩
    have hlow : s.bus.fatLow = true := hlow
    have hopen : s.bus.suspended = false := hopen
    rcases hf with h | h
    · rw [h] at hlow
      cases hlow
    · rw [h] at hopen
      cases hopen
  have hqueue : (s.setBus { s.bus with pollQueue := s.bus.pollQueue ++ [e] }).bus.pollQueue = e :: [] := by
    rw [State.bus_setBus, hp]
    rfl
  have hbus : { s.bus with pollQueue := [], state := s.opening (.poll e) } =
      { s.bus with state := s.opening (.poll e) } := by rw [← hp]
  rw [arbiter_running (by exact hi) (by exact hr), choose_poll hno (by exact hc) hqueue, ← hbus]
  rfl

/-- POLL of a field source, by what is outstanding and queued (R38, R159, R42). -/
theorem poll_fieldSource {s : State} {p : Port} {f : Frame} {rest : List Frame} {i : Src} (hs : Settled s)
    (hex : Executes s p .poll f rest) (hnum : Src.ofNum (f.byte 0).toNat = some i) (hfield : i.isDirect = false) :
    (s.pollOutstanding p = true →
      exec (.poll p) s = .next (s.reply p { s.eng p with requests := rest } ⟨0x23, .busy, f.payload⟩)) ∧
    (s.pollOutstanding p = false → (∃ e ∈ s.bus.pollQueue, e.src = i) →
      exec (.poll p) s = .next ((s.setEng p { s.eng p with requests := rest }).setBus { s.bus with
        pollQueue := s.bus.pollQueue.map (fun e =>
          if e.src = i then { e with requesters := e.requesters.insert p } else e) })) ∧
    (s.pollOutstanding p = false → (∀ e ∈ s.bus.pollQueue, e.src ≠ i) → s.bus.state ≠ .idle →
      exec (.poll p) s = .next ((s.setEng p { s.eng p with requests := rest }).setBus { s.bus with
        pollQueue := s.bus.pollQueue ++ [⟨i, PortSet.empty.insert p⟩] })) ∧
    (s.pollOutstanding p = false → s.bus.state = .idle → s.bus.pollQueue = [] → s.bus.clearList = [] →
      (s.bus.fatLow = false ∨ s.bus.suspended = true) →
      exec (.poll p) s = .next ((s.setEng p { s.eng p with requests := rest }).setBus { s.bus with
        state := s.opening (.poll ⟨i, PortSet.empty.insert p⟩) })) := by
  have hrun := exec_poll hex
  have hline := line_none_of_field hfield
  have hsrc := ofNum_src hnum
  have hpopped := popped_settled hs p rest
  refine ⟨fun hb => ?_, fun hb hq => ?_, fun hb hq hi => ?_, fun hb hi hp hc hf => ?_⟩
  · have hanswer := poll_answer hex .busy []
    rw [List.append_nil, List.append_nil] at hanswer
    rw [hrun, decidePoll_busy (s := s.popped p rest) (by rw [hsrc, hline]) hb, hanswer, settle_answer hs hex.may]
  · rw [hrun, decidePoll_joins (s := s.popped p rest) hsrc hline hb hq, settle_setBus hpopped]
    rfl
  · rw [hrun, decidePoll_appends (s := s.popped p rest) hsrc hline hb hq, arbiter_busy (by exact hi),
      settle_setBus hpopped]
    rfl
  · have hrunning : s.stage = .running := running_of_admitted hex.admitted rfl
    have hnone : ∀ e ∈ (s.popped p rest).bus.pollQueue, e.src ≠ i := by
      intro e he
      have he : e ∈ s.bus.pollQueue := he
      rw [hp] at he
      cases he
    rw [hrun, decidePoll_appends (s := s.popped p rest) hsrc hline hb hnone,
      arbiter_sendsPoll (s := s.popped p rest) hrunning hi hc hp hf,
      settle_setBus hpopped]
    rfl

/-! ### POLL of a direct line (R8, R160) -/

theorem decidePoll_line {s : State} {p : Port} {f : Frame} {k : Fin 8} (hi : f.src.line = some k) :
    s.decidePoll p f = (s.lineQuery k).respond p (f.answer .ok
      ([f.byte 0] ++ [if ((s.lineQuery k).line k).latch then 1 else 0, 0, 0])) := by
  have hset (latch : Bool) : le16 (latchSet latch) ++ [0] = [if latch then 1 else 0, 0, 0] := by
    cases latch <;> rfl
  unfold State.decidePoll
  simp only [hi]
  rw [List.append_assoc, hset]

theorem setLine_line (s : State) (k : Fin 8) : s.setLine k (s.line k) = s := by
  have hset : s.sources.lines.set k.val (s.sources.lines.get k) k.isLt = s.sources.lines := Vector.set_getElem_self _
  unfold State.setLine State.line
  rw [hset]

theorem lineQuery_disabled {s : State} {k : Fin 8} (h : (s.src (Src.ofLine k)).state = .disabled) :
    s.lineQuery k = s := if_pos h

/-- A latch that stays open reports nothing. -/
theorem lineQuery_open {s : State} {k : Fin 8} (h : (s.src (Src.ofLine k)).state ≠ .disabled)
    (hl : (s.line k).latch = false) (ha : (s.line k).filtered ≠ .active) : s.lineQuery k = s := by
  have hlatch : ((s.line k).latch || (s.line k).filtered == .active) = (s.line k).latch := by simp [ha]
  unfold State.lineQuery
  dsimp only
  rw [if_neg h, hlatch, setLine_line, if_neg (by simp [hl])]

/-- A latch that holds {0}, or takes it, reports it. -/
theorem lineQuery_latched {s : State} {k : Fin 8} (h : (s.src (Src.ofLine k)).state ≠ .disabled)
    (hl : (s.line k).latch = true ∨ (s.line k).filtered = .active) :
    s.lineQuery k = (s.setLine k { s.line k with latch := true }).reportArrival (Src.ofLine k) 1 := by
  have hlatch : ((s.line k).latch || (s.line k).filtered == .active) = true := by simpa using hl
  unfold State.lineQuery
  dsimp only
  rw [if_neg h, hlatch, State.line_setLine, if_pos rfl, if_pos rfl]
  rfl

/-- The line after a query: it has taken an ACTIVE level. -/
theorem lineQuery_line {s : State} {k : Fin 8} (h : (s.src (Src.ofLine k)).state ≠ .disabled) {latch : Bool}
    (hl : latch = ((s.line k).latch || decide ((s.line k).filtered = .active))) :
    (s.lineQuery k).line k = { s.line k with latch := latch } := by
  cases latch with
  | false =>
    obtain ⟨hopen, ha⟩ := Bool.or_eq_false_iff.mp hl.symm
    rw [lineQuery_open h hopen (by simpa using ha), ← hopen]
  | true =>
    have hlatched : (s.line k).latch = true ∨ (s.line k).filtered = .active := by simpa using hl.symm
    rw [lineQuery_latched h hlatched]
    simp only [State.line, reportArrival_lines]
    exact (State.line_setLine s k { s.line k with latch := true } k).trans (if_pos rfl)

/-- A latch is no part of what is noted of a source. -/
theorem setLine_noted {s v : State} {i : Src} (h : Noted s v i) (k : Fin 8) (l : LineRt) :
    Noted s (v.setLine k l) i :=
  ⟨h.step.trans (setLine_sourceStep v k l i), h.notices, h.delivery, h.state, h.arrears, h.openings⟩

/-- POLL of a DISABLED line changes nothing (R8). -/
theorem poll_disabledLine {s : State} {p : Port} {f : Frame} {rest : List Frame} {k : Fin 8} (hs : Settled s)
    (hex : Executes s p .poll f rest) (hnum : Src.ofNum (f.byte 0).toNat = some (Src.ofLine k))
    (hd : (s.src (Src.ofLine k)).state = .disabled) : exec (.poll p) s = .next (s.reply p
      { s.eng p with requests := rest } ⟨0x23, .ok, f.payload ++ [if (s.line k).latch then 1 else 0, 0, 0]⟩) := by
  have hpop := popped_alike s p rest
  rw [exec_poll hex, decidePoll_line (by rw [ofNum_src hnum, line_ofLine]),
    lineQuery_disabled (by rwa [hpop.src]), poll_answer hex, hpop.line, settle_answer hs hex.may]

/-- Settles O39. A POLL of an enabled line is a query of it; a latch that holds {0} is a report arrival. -/
theorem pollIsQueuedOrAnswered : Obligations.PollIsQueuedOrAnswered := by
  unfold Obligations.PollIsQueuedOrAnswered
  refine ⟨fun s p f rest i hs hex hnum hfield => poll_fieldSource hs hex hnum hfield,
    fun s p f rest k latch hs ho hex hnum => ⟨fun hd => poll_disabledLine hs hex hnum hd, fun hon hlatch => ?_⟩⟩
  have hpop := popped_alike s p rest
  have hvon : ((s.popped p rest).src (Src.ofLine k)).state ≠ .disabled := by rwa [hpop.src]
  have hrun := exec_poll hex
  have hqline := lineQuery_line (s := s.popped p rest) hvon (latch := latch) (by rw [hpop.line, hlatch])
  rw [decidePoll_line (by rw [ofNum_src hnum, line_ofLine]), poll_answer hex, hqline, hpop.line] at hrun
  have hopened (hl : latch = false) : (s.popped p rest).lineQuery k = s.popped p rest := by
    rw [hl] at hlatch
    obtain ⟨hopen, ha⟩ := Bool.or_eq_false_iff.mp hlatch.symm
    exact lineQuery_open hvon hopen (of_decide_eq_false ha)
  have hlatched (hl : latch = true) : (s.popped p rest).lineQuery k =
      ((s.popped p rest).setLine k { s.line k with latch := true }).reportArrival (Src.ofLine k) 1 := by
    rw [hl] at hlatch
    exact lineQuery_latched hvon (by rw [hpop.line]; simpa using hlatch.symm)
  have hqbus : ((s.popped p rest).lineQuery k).bus = s.bus :=
    (busPart_fields (lineQuery_busPart (s.popped p rest) k)).2
  generalize (s.popped p rest).lineQuery k = v at *
  generalize (⟨0x23, .ok, f.payload ++ [if latch then 1 else 0, 0, 0]⟩ : Response) = r at hrun ⊢
  have hresp := respond_alike v p r
  have harrives (hl : latch = true) : ReportArrives s (v.respond p r).settle (Src.ofLine k) 1 := by
    refine reportArrival_on_settled hs ho (setLine_noted (hpop.noted _) k { s.line k with latch := true })
      (hpop.src _) hon ?_
    rw [← hlatched hl]
    exact hresp.latching
  have hquiet (hl : latch = false) : TouchesOnly s (v.respond p r).settle (Src.ofLine k) ∧
      (v.respond p r).settle.sources = s.sources ∧ (v.respond p r).settle.notices = s.notices := by
    rw [hopened hl] at hresp ⊢
    obtain ⟨htouches, hsources, hnotices, -⟩ := (hpop.trans hresp).latching.at_end hs (Src.ofLine k)
    exact ⟨htouches, hsources, hnotices⟩
  refine ⟨_, hrun, ?_, ?_, settle_owes (by rw [respond_eng, if_pos rfl]; simp), ?_, fun hl => ?_, fun hl => ?_⟩
  · rw [← hpop.line, ← hqline]
    simp only [State.line, settle_sources, hresp.sources]
  · rw [settle_bus]
    exact hqbus
  · cases latch with
    | false => exact (hquiet rfl).1
    | true => exact (harrives rfl).touches
  · obtain ⟨-, hsources, hnotices⟩ := hquiet hl
    exact ⟨hsources, hnotices⟩
  · obtain ⟨hrep, hreach, -⟩ := (harrives hl).noted hon
    exact ⟨harrives hl, hrep, hreach, fun hq hne => ((harrives hl).opens hq hne).1⟩

end Sys2Proof.Machine

/-! SUPPORT. What the places and the orders of notices look at, and the operations that leave it. -/

namespace Sys2Proof.Machine

/-! ### What the places and the orders of notices look at -/

/-- What of a record the places and the orders of notices look at: not its conditions, its marks and its timers. -/
structure Standing where
  cls : Fin 8
  mode : RouteMode
  state : NoticeState
  offers : PortSet
  tried : PortSet
  order : Nat

def Notice.standing (n : Notice) : Standing := ⟨n.cls, n.mode, n.state, n.offers, n.tried, n.order⟩

/-- What the places and the orders of notices look at: the standing of every record, the stranded list, the delivery
unit, and of the tables the backlog limits and the rank order. -/
structure Board where
  standing : Src → Option Standing
  stranded : List Src
  nextOrder : Nat
  delivery : DeliveryUnit
  limit : Port → Nat
  ranks : List (Fin 8)

def State.board (s : State) : Board :=
  ⟨fun i => (s.notice i).map Notice.standing, s.stranded, s.notices.nextOrder, s.delivery, s.backlogLimit,
    s.config.tables.order⟩

theorem board_queue {s t : State} (h : t.board = s.board) (p : Port) : t.queue p = s.queue p :=
  congrArg (fun b : Board => b.delivery.queues.get p) h

theorem board_standing {s t : State} (h : t.board = s.board) (i : Src) :
    (t.notice i).map Notice.standing = (s.notice i).map Notice.standing :=
  congrArg (fun b : Board => b.standing i) h

theorem board_isSome {s t : State} (h : t.board = s.board) (i : Src) : (t.notice i).isSome = (s.notice i).isSome := by
  have := congrArg Option.isSome (board_standing h i)
  simpa using this

/-! ### The operations that leave the board -/

theorem board_of_eq {s t : State} (hn : t.notices = s.notices) (hd : t.delivery = s.delivery)
    (hc : t.config = s.config) : t.board = s.board := by
  unfold State.board State.notice State.stranded State.backlogLimit State.portCfg
  rw [hn, hd, hc]

theorem board_of_offEngines {s t : State} (h : t.offEngines = s.offEngines) : t.board = s.board := by
  obtain ⟨-, -, hn, hd, -, -, hc⟩ := offEngines_fields h
  exact board_of_eq hn hd hc

theorem board_of_offBus {s t : State} (h : t.offBus = s.offBus) : t.board = s.board := by
  simp only [State.offBus, Prod.mk.injEq] at h
  obtain ⟨-, -, hn, hd, -, -, hc, -⟩ := h
  exact board_of_eq hn hd hc

@[simp] theorem setSrc_board (s : State) (i : Src) (r : SourceRt) : (s.setSrc i r).board = s.board := rfl
@[simp] theorem setLine_board (s : State) (k : Fin 8) (r : LineRt) : (s.setLine k r).board = s.board := rfl
@[simp] theorem setEng_board (s : State) (p : Port) (e : PortEngine) : (s.setEng p e).board = s.board := rfl
@[simp] theorem setBus_board (s : State) (b : FieldBus) : (s.setBus b).board = s.board := rfl
@[simp] theorem setCfg_board (s : State) (i : Src) (c : SourceCfg) : (s.setCfg i c).board = s.board := rfl
@[simp] theorem latchRisen_board (old s : State) : (State.latchRisen old s).board = s.board := rfl
@[simp] theorem occur_board (s : State) (p : Port) (n : Nat) : (s.occur p n).board = s.board := rfl
@[simp] theorem respond_board (s : State) (p : Port) (r : Response) : (s.respond p r).board = s.board := rfl
@[simp] theorem withdraw_board (s : State) (p : Port) (w : Withdrawal) : (s.withdraw p w).board = s.board := rfl
@[simp] theorem cutLink_board (s : State) (p : Port) : (s.cutLink p).board = s.board := rfl
@[simp] theorem dropPolls_board (s : State) (p : Port) : (s.dropPolls p).board = s.board := rfl
@[simp] theorem dropRight_board (s : State) (p : Port) : (s.dropRight p).board = s.board := rfl
@[simp] theorem emptyLists_board (s : State) (p : Port) (st : PortState) : (s.emptyLists p st).board = s.board := rfl

@[simp] theorem spendFree_board (s : State) (l : List Src) : (s.spendFree l).board = s.board := rfl
@[simp] theorem bidFailed_board (s : State) : s.bidFailed.board = s.board := rfl

@[simp] theorem arbiter_board (s : State) : s.arbiter.board = s.board := board_of_offBus (arbiter_offBus s)

theorem foldl_board {α : Type} {op : State → α → State} (h : ∀ t x, (op t x).board = t.board) (l : List α)
    (s : State) : (l.foldl op s).board = s.board := foldl_keeps State.board op h l s

/-- A record rewritten in what nothing of the board shows. -/
theorem setNotice_board {s : State} {i : Src} {n m : Notice} (h : s.notice i = some n)
    (hm : m.standing = n.standing) : (s.setNotice i (some m)).board = s.board := by
  have hst (j : Src) : ((s.setNotice i (some m)).notice j).map Notice.standing =
      (s.notice j).map Notice.standing := by
    rw [State.notice_setNotice]
    split
    · subst_vars
      rw [h, Option.map_some, Option.map_some, hm]
    · rfl
  unfold State.board
  rw [funext hst]
  rfl

theorem modNotice_board {s : State} {i : Src} {f : Notice → Notice} (h : ∀ n, (f n).standing = n.standing) :
    (s.modNotice i f).board = s.board := by
  unfold State.modNotice
  split
  · rfl
  · exact setNotice_board (by assumption) (h _)

theorem tickTimers_board (s : State) : s.tickTimers.board = s.board := by
  have hst (i : Src) : (s.tickTimers.notice i).map Notice.standing = (s.notice i).map Notice.standing := by
    show ((tabulate (fun i => (s.notice i).map Notice.tick)).get i).map Notice.standing = _
    rw [tabulate_get, Option.map_map]
    rfl
  unfold State.board
  rw [funext hst]
  rfl

/-- A PORT entry with the backlog limit in force. -/
theorem setPortCfg_board {s : State} {p : Port} {c : PortCfg} (h : c.backlog = (s.portCfg p).backlog) :
    (s.setPortCfg p c).board = s.board := by
  have hlimit : (s.setPortCfg p c).backlogLimit = s.backlogLimit := by
    funext q
    unfold State.backlogLimit
    rw [State.portCfg_setPortCfg]
    split
    · subst_vars
      rw [h]
    · rfl
  unfold State.board
  rw [hlimit]
  rfl

theorem applyRate_board (s : State) (p : Port) : (s.applyRate p).board = s.board :=
  board_of_offEngines (applyRate_offEngines s p)

theorem withdrawAll_board (s : State) (i : Src) (n : Notice) (r : Reason) : (s.withdrawAll i n r).board = s.board :=
  board_of_offEngines (withdrawAll_offEngines s i n r)

theorem cancelBusWork_board (s : State) : s.cancelBusWork.board = s.board := by
  have hcancel (t : State) (e : PollEntry) : (t.cancelPoll e).board = t.board :=
    board_of_offEngines (cancelPoll_offEngines t e)
  have hfold := foldl_board hcancel s.bus.pollQueue s
  unfold State.cancelBusWork
  dsimp only
  split
  · split
    · rw [setBus_board, hcancel, setBus_board, hfold]
    · rw [setBus_board, setBus_board, hfold]
  · rw [setBus_board, hfold]

theorem outcomeAfterClearAll_board (s : State) (i : Src) (good : Bool) :
    (s.outcomeAfterClearAll i good).board = s.board := by
  unfold State.outcomeAfterClearAll
  dsimp only
  repeat' split
  all_goals rfl

theorem moveCursor_board (s : State) (o : BusOutcome) : (s.moveCursor o).board = s.board := by
  unfold State.moveCursor
  repeat' split
  all_goals rfl

theorem takeChar_board (s : State) (p : Port) (chars : List Byte) (c : LinkChar) :
    (s.takeChar p chars c).board = s.board := by
  unfold State.takeChar State.takeByte State.offerFrame
  dsimp only
  repeat' split
  all_goals rfl

theorem frameEnded_board (s : State) (p : Port) (f : TxFrame) : (s.frameEnded p f).board = s.board := by
  unfold State.frameEnded
  dsimp only
  split
  · refine modNotice_board fun n => ?_
    split <;> rfl
  · rfl
  · rfl

theorem completeStore_board (s : State) (t : Tables) (dest : Option Port) (content : List Byte)
    (check : BitVec 16) : (s.completeStore t dest content check).board = s.board := by
  unfold State.completeStore
  dsimp only
  split <;> rfl

/-! ### Records, entries and lines that single operations leave -/

theorem SourcesOk.unrecorded_of_quiet {s : State} (ho : SourcesOk s) (i : Src) (hq : (s.src i).state = .quiet) :
    s.notice i = none := ho.notice_none (by rw [hq]; simp)

theorem removeRef_notice (s : State) (i : Src) (p : Port) (j : Src) : (s.removeRef i p).notice j = s.notice j := by
  obtain ⟨-, -, hn, -⟩ := offDelivery_fields (removeRef_offDelivery s i p)
  simp only [State.notice, hn]

theorem makeClaim_notice {s : State} {i : Src} {n : Notice} (h : s.notice i = some n) (p : Port) :
    ∃ m, (s.makeClaim p i n).notice i = some m := by
  have := congrArg SourceView.recorded (congrFun (makeClaim_sourceView h p) i)
  refine Option.isSome_iff_exists.mp (this.trans ?_)
  show (s.notice i).isSome = true
  rw [h]
  rfl

theorem endAllNotices_notice (s : State) (i : Src) : s.endAllNotices.notice i = none := by
  rw [← Option.not_isSome_iff_eq_none]
  have : (s.endAllNotices.notice i).isSome = false := congrArg SourceView.recorded (endAllNotices_sourceView s i)
  simp [this]

/-- The record that a RELEASE makes stands as that of a revoked claim. -/
theorem released_board {s : State} {i : Src} {n : Notice} (h : s.notice i = some n) (p : Port) :
    (s.setNotice i (some { n with state := .waiting, tried := n.tried.insert p, serviceTimer := none })).board =
      (s.revokeClaim p i).board := by
  have hst (j : Src) : ((s.setNotice i (some { n with
        state := .waiting, tried := n.tried.insert p, serviceTimer := none })).notice j).map Notice.standing =
      ((s.revokeClaim p i).notice j).map Notice.standing := by
    rw [State.notice_setNotice, State.revokeClaim, modNotice_notice]
    split
    · rw [h]
      rfl
    · rfl
  unfold State.board
  rw [funext hst]
  unfold State.revokeClaim State.modNotice
  rw [h]
  rfl

theorem lineQuery_sourceStep (s : State) (k : Fin 8) : SourceStep s (s.lineQuery k) (Src.ofLine k) := by
  unfold State.lineQuery
  dsimp only
  split
  · exact .refl s _
  · split
    · exact (setLine_sourceStep s k _ _).trans (reportArrival_sourceStep _ _ _)
    · exact setLine_sourceStep s k _ _

theorem ofLine_injective : Function.Injective Src.ofLine := fun j k h => by
  have := congrArg Fin.val h
  simp only [Src.ofLine] at this
  exact Fin.ext (by omega)

theorem foldl_config {α : Type} {op : State → α → State} (h : ∀ t x, (op t x).config = t.config) (l : List α)
    (s : State) : (l.foldl op s).config = s.config := foldl_keeps State.config op h l s

theorem modNotice_config (t : State) (i : Src) (f : Notice → Notice) : (t.modNotice i f).config = t.config := by
  obtain ⟨-, -, -, -, -, hc, -⟩ := offNotices_fields (modNotice_rest t i f).1
  exact hc

theorem walkIfBare_config (t : State) (i : Src) : (t.walkIfBare i).config = t.config := by
  obtain ⟨-, -, -, -, -, hc, -⟩ := offNotices_fields (walkIfBare_offNotices t i)
  exact hc

/-- The evictions leave the PORT entry with its new limit (R81). -/
theorem setBacklog_limit (s : State) (q : Port) (limit : Byte) :
    ((s.setBacklog q limit).portCfg q).backlog = limit := by
  have hc : (s.setBacklog q limit).config = (s.setPortCfg q { s.portCfg q with backlog := limit }).config :=
    foldl_config (fun t i => (walkIfBare_config _ i).trans (modNotice_config t i _)) _ _
  unfold State.portCfg
  rw [hc]
  show ((s.setPortCfg q { s.portCfg q with backlog := limit }).portCfg q).backlog = limit
  rw [State.portCfg_setPortCfg, if_pos rfl]

theorem detachEffects_portCfg (s : State) (p : Port) (st : PortState) (q : Port) :
    (s.detachEffects p st).portCfg q = s.portCfg q := by
  have hround (t : State) (i : Src) (f : Notice → Notice) : ((t.modNotice i f).walkIfBare i).config = t.config :=
    (walkIfBare_config _ i).trans (modNotice_config t i f)
  have hrev : (s.revokeAll p).config = s.config := by
    unfold State.revokeAll State.dropOffer State.revokeClaim
    dsimp only
    rw [foldl_config (fun t i => hround t i _), foldl_config (fun t i => hround t i _)]
  have hempty (t : State) : (t.emptyQueue p).config = t.config := by
    unfold State.emptyQueue State.addTried
    refine foldl_config (fun u i => ?_) _ _
    rw [hround, State.config_setQueue]
  unfold State.detachEffects State.portCfg
  split
  · show ((s.revokeAll p).emptyQueue p).config.tables.ports.get q = _
    rw [hempty, hrev]
  · rfl

end Sys2Proof.Machine

/-! SUPPORT. What a predicate on notices, queues and the pass must survive to survive every command. -/

namespace Sys2Proof.Machine

/-- P looks at the board alone, has every reference designate a living notice, and survives each event of the notice
table and the delivery unit: an opening, a port that lets go of a notice, what a full queue and a transmitter do, a
claim, the end of a notice, the pass, and new tables. -/
structure NoticeInvariant (P : State → Prop) : Prop where
  congr {s t : State} : P s → t.board = s.board → P t
  live {s : State} : P s → ∀ p, ∀ i ∈ s.queue p, (s.notice i).isSome = true
  opened {s : State} {i : Src} : P s → s.notice i = none → ∀ conds, P (s.openNotice i conds)
  offerDropped {s t : State} {i : Src} {n : Notice} {p : Port} : P s → s.notice i = some n → n.offers.has p = true →
    t.board = (s.dropOffer p i).board → P (t.walkIfBare i)
  claimRevoked {s t : State} {i : Src} {n : Notice} {p : Port} : P s → s.notice i = some n → n.state = .claimed p →
    t.board = (s.revokeClaim p i).board → P (t.walk i) ∧ P (t.walkIfBare i)
  revoked {s : State} : P s → ∀ p, P (s.revokeAll p)
  queueEmptied {s : State} : P s → ∀ p, P (s.emptyQueue p)
  backlogSet {s : State} : P s → ∀ p limit, P (s.setBacklog p limit)
  headTaken {s : State} {i : Src} {n : Notice} {p : Port} : P s → i ∈ s.queue p → s.notice i = some n →
    P ((s.removeRef i p).setNotice i (some (n.offerTo p)))
  claimed {s : State} {i : Src} {n : Notice} {p : Port} : P s → s.notice i = some n → n.offers.has p = true →
    P (s.makeClaim p i n)
  ended {s : State} : P s → ∀ i r, P (s.endNotice i r)
  passTriggered {s : State} : P s → P s.triggerPass
  passStepped {s : State} : P s → P s.passStep
  passStopped {s : State} : P s → P (s.setPass [] false)
  ranked {s : State} : P s → ∀ order, P (s.writeRank order)
  loaded {s t : State} : P s → (∀ p, s.queue p = []) → t.notices = s.notices → t.delivery = s.delivery → P t
  reset (s : State) : P s.fullReset

variable {P : State → Prop}

/-! ### Openings, reports and failed exchanges -/

namespace NoticeInvariant

theorem foldl {α : Type} {op : State → α → State} (hop : ∀ t x, P t → P (op t x)) (l : List α) {s : State}
    (h : P s) : P (l.foldl op s) := by
  induction l generalizing s with
  | nil => exact h
  | cons x l ih => exact ih (hop s x h)

theorem triggerIf (I : NoticeInvariant P) {s : State} (h : P s) (c : Bool) : P (s.triggerIf c) := by
  unfold State.triggerIf
  split
  · exact I.passTriggered h
  · exact h

/-- New conditions of a source that has no record while it is QUIET. -/
theorem applyConditions (I : NoticeInvariant P) {s : State} {i : Src} (h : P s)
    (hq : (s.src i).state = .quiet → s.notice i = none) (new : CodeSet) : P (s.applyConditions i new) := by
  unfold State.applyConditions
  split
  · exact h
  · rename_i hst
    split
    · exact h
    · exact I.opened h (hq hst) new
  · split
    · exact h
    · rename_i n hn
      split
      · exact I.congr h (setNotice_board hn rfl)
      · exact I.congr h (setSrc_board _ _ _)
  · exact I.congr h (setSrc_board _ _ _)

theorem reportArrival (I : NoticeInvariant P) {s : State} {i : Src} (h : P s)
    (hq : (s.src i).state = .quiet → s.notice i = none) (report : CodeSet) : P (s.reportArrival i report) := by
  by_cases hd : (s.src i).state = .disabled
  · rwa [reportArrival_off hd]
  · rw [reportArrival_of_on hd]
    refine I.applyConditions (s := s.noteReport i report) (I.congr h (setSrc_board _ _ _)) ?_ _
    rw [noteReport_src]
    exact hq

theorem failedExchange (I : NoticeInvariant P) {s : State} {i : Src} (h : P s)
    (hq : (s.src i).state = .quiet → s.notice i = none) : P (s.failedExchange i) := by
  unfold State.failedExchange
  dsimp only
  split
  · exact h
  · split
    · refine I.applyConditions (s := s.losesSource i) (I.congr h rfl) ?_ _
      rw [losesSource_src]
      exact hq
    · split
      · exact I.congr h (setSrc_board _ _ _)
      · exact h

theorem handOutcome (I : NoticeInvariant P) {s : State} (h : P s) (ho : SourcesOk s) (t : InFlight) (i : Src)
    (o : BusOutcome) : P (s.handOutcome t i o) := by
  have overtaken (good : Bool) : P (s.outcomeAfterClearAll i good) := I.congr h (outcomeAfterClearAll_board s i good)
  have failed : P (s.failedExchange i) := I.failedExchange h (ho.unrecorded_of_quiet i)
  unfold State.handOutcome
  cases o with
  | replied r =>
    dsimp only
    split
    · exact overtaken _
    · exact I.reportArrival h (ho.unrecorded_of_quiet i) r
  | badCheck => dsimp only; split; exacts [overtaken _, failed]
  | noReply => dsimp only; split; exacts [overtaken _, failed]

theorem lineQuery (I : NoticeInvariant P) {s : State} {k : Fin 8} (h : P s)
    (hq : (s.src (Src.ofLine k)).state = .quiet → s.notice (Src.ofLine k) = none) : P (s.lineQuery k) := by
  unfold State.lineQuery
  dsimp only
  split
  · exact h
  · have hl := fun l => I.congr h (setLine_board s k l)
    split
    · exact I.reportArrival (hl _) hq _
    · exact hl _

theorem lineRose (I : NoticeInvariant P) {s : State} (h : P s) (ho : SourcesOk s) (i : Src) : P (s.lineRose i) := by
  unfold State.lineRose
  split
  · exact h
  · exact I.reportArrival (I.congr h (setLine_board s _ _)) (ho.unrecorded_of_quiet i) _

/-- The completion of the clear of a source that has no record (R60). -/
theorem clearCompletion (I : NoticeInvariant P) {s : State} {i : Src} (h : P s) (hn : s.notice i = none)
    (report : CodeSet) : P (s.clearCompletion i report) := by
  have hc : P (s.cleared i) := I.congr h (setSrc_board _ _ _)
  rw [clearCompletion_eq]
  split
  · exact hc
  · exact I.opened hc hn _

theorem clearFailed (I : NoticeInvariant P) {s : State} (h : P s) (ho : SourcesOk s) (e : ClearEntry) :
    P (s.clearFailed e) := by
  have hf : P (s.failedExchange e.src) := I.failedExchange h (ho.unrecorded_of_quiet e.src)
  unfold State.clearFailed
  dsimp only
  split
  · exact I.congr hf (setBus_board _ _)
  · split
    · rename_i hc
      exact I.clearCompletion hf ((failedExchange_sourcesOk ho e.src).notice_none (by simp [hc])) 0
    · exact hf

theorem clearEffect (I : NoticeInvariant P) {s : State} (h : P s) (ho : SourcesOk s) (e : ClearEntry)
    (o : BusOutcome) : P (s.clearEffect e o) := by
  unfold State.clearEffect
  cases o with
  | replied r =>
    dsimp only
    split
    · rename_i hc
      exact I.clearCompletion (I.congr h (setSrc_board _ _ _)) (ho.notice_none (by simp [hc])) r
    · exact h
  | badCheck => exact I.clearFailed h ho e
  | noReply => exact I.clearFailed h ho e

/-- The end of a notice by CLOSE (R58, R59). -/
theorem closeNotice (I : NoticeInvariant P) {s : State} {i : Src} {m : Notice} (h : P s) (hm : s.notice i = some m)
    (n : Notice) (effective : CodeSet) : P (s.closeNotice i n effective) := by
  have hgone : (s.endNotice i none).notice i = none := by
    rw [(endNotice_closed hm).2.2.1, if_pos rfl]
  rw [closeNotice_eq]
  generalize hu : (s.endNotice i none).setSrc i ((s.src i).closing n.conds effective) = u
  have hP : P u := I.congr (I.ended h i none) (by rw [← hu]; exact setSrc_board _ _ _)
  have hn : u.notice i = none := by rw [← hu]; exact hgone
  unfold State.beginClear
  split
  · exact I.congr hP (setBus_board _ _)
  · refine I.clearCompletion (i := i) ?_ ?_ _
    · exact I.congr hP rfl
    · exact hn

/-! ### The end of an event -/

/-- What one transmitter takes at the end of an event (R96). -/
theorem settlePort (I : NoticeInvariant P) {s : State} (h : P s) (p : Port) : P (s.settlePort p) := by
  cases ht : s.headTaken p with
  | none =>
    obtain ⟨hn, hd⟩ := (settlePort_parts s p).1 ht
    exact I.congr h (board_of_eq hn hd (offLinks_fields (settlePort_offLinks s p)).2.2.2.2.1)
  | some i =>
    have hr : P (s.applyRate p) := I.congr h (applyRate_board s p)
    have ht' : (s.applyRate p).headTaken p = some i := (applyRate_headTaken s p p).trans ht
    obtain ⟨-, -, ⟨rest, hq⟩, n, hn⟩ := headTaken_some ht'
    unfold State.settlePort
    rw [chooseFrame_taken ht' hn]
    exact I.congr (I.headTaken hr (by rw [hq]; exact List.mem_cons_self) hn) rfl

theorem settle (I : NoticeInvariant P) {s : State} (h : P s) : P s.settle :=
  I.settlePort (I.settlePort (I.settlePort h .A) .B) .C

/-! ### Requests -/

/-- A request keeps P where its decision does, from a state outside BOOTING. -/
theorem execHead (I : NoticeInvariant P) {s : State} (h : P s) (ho : SourcesOk s) {p : Port} {named : Frame → Bool}
    {run : Frame → State → State} (hrun : ∀ f t, P t → SourcesOk t → t.stage ≠ .booting → P (run f t)) :
    P (s.execHead p named run) := by
  unfold State.execHead
  split
  · rename_i hmay
    split
    · exact h
    · split
      · exact I.settle (hrun _ _ (I.congr h (setEng_board s p _)) (ho.of_sourceView (setEng_sourceView s p _))
          ((mayExecute_iff s p).mp hmay).1)
      · exact h
  · exact h

theorem execKind (I : NoticeInvariant P) {s : State} (h : P s) (ho : SourcesOk s) {p : Port} {k : ReqKind}
    {named : Frame → Bool} {run : Frame → State → State}
    (hrun : ∀ f t, P t → SourcesOk t → t.stage ≠ .booting → P (run f t)) : P (s.execKind p k named run) := by
  refine I.execHead h ho fun f t ht hto hb => ?_
  split
  · exact I.congr ht (respond_board _ _ _)
  · exact hrun f t ht hto hb

/-- A request that leaves the board. -/
theorem execKind_of_board (I : NoticeInvariant P) {s : State} (h : P s) (ho : SourcesOk s) {p : Port} {k : ReqKind}
    {named : Frame → Bool} {run : Frame → State → State} (hrun : ∀ f t, (run f t).board = t.board) :
    P (s.execKind p k named run) := I.execKind h ho fun f t ht _ _ => I.congr ht (hrun f t)

theorem detachEffects (I : NoticeInvariant P) {s : State} (h : P s) (p : Port) (st : PortState) :
    P (s.detachEffects p st) := by
  unfold State.detachEffects
  split
  · exact I.congr (I.queueEmptied (I.revoked h p) p) (by simp)
  · exact I.congr h (emptyLists_board _ _ _)

theorem decideAttach (I : NoticeInvariant P) {s : State} (h : P s) (p : Port) (f : Frame) :
    P (s.decideAttach p f) := by
  unfold State.decideAttach
  dsimp only
  split
  · exact h
  · exact I.congr (I.passTriggered (I.congr h (setEng_board _ _ _))) (respond_board _ _ _)
  · split <;> exact I.congr h rfl
  · split <;> exact I.congr h rfl

theorem decideDetach (I : NoticeInvariant P) {s : State} (h : P s) (p : Port) (f : Frame) :
    P (s.decideDetach p f) :=
  I.congr (I.triggerIf (I.detachEffects h p .detached) _) (respond_board _ _ _)

theorem decideResume (I : NoticeInvariant P) {s : State} (h : P s) (p : Port) (f : Frame) :
    P (s.decideResume p f) := by
  unfold State.decideResume
  split
  · exact I.congr (I.passTriggered (I.congr h (setEng_board _ _ _))) (respond_board _ _ _)
  · exact I.congr h (respond_board _ _ _)

theorem decideClaim (I : NoticeInvariant P) {s : State} (h : P s) (p : Port) (f : Frame) : P (s.decideClaim p f) := by
  have answered (r : Response) : P (s.respond p r) := I.congr h (respond_board s p r)
  unfold State.decideClaim
  split
  · exact answered _
  · rename_i n hn
    obtain ⟨hn, -⟩ := named_some hn
    split
    · split <;> exact answered _
    · split
      · rename_i ho
        have hclaim := I.claimed h hn ho
        obtain ⟨m, hm⟩ := makeClaim_notice hn p
        unfold State.claimOffered
        dsimp only
        split
        · refine I.congr hclaim ((respond_board _ _ _).trans (modNotice_board fun _ => rfl))
        · exact I.congr (I.closeNotice hclaim hm n _) ((arbiter_board _).trans (respond_board _ _ _))
      · exact answered _
    · exact answered _

theorem decideRelease (I : NoticeInvariant P) {s : State} (h : P s) (p : Port) (f : Frame) :
    P (s.decideRelease p f) := by
  unfold State.decideRelease
  split
  · exact I.congr h (respond_board _ _ _)
  · rename_i n hn
    obtain ⟨hn, -⟩ := named_some hn
    split
    · rename_i hc
      exact (I.claimRevoked h hn hc ((respond_board _ _ _).trans (released_board hn p))).1
    · exact I.congr h (respond_board _ _ _)

theorem decideClose (I : NoticeInvariant P) {s : State} (h : P s) (p : Port) (f : Frame) : P (s.decideClose p f) := by
  unfold State.decideClose
  split
  · exact I.congr h (respond_board _ _ _)
  · rename_i n hn
    split
    · exact I.congr (I.closeNotice h (named_some hn).1 n _) ((arbiter_board _).trans (respond_board _ _ _))
    · exact I.congr h (respond_board _ _ _)

theorem decidePoll (I : NoticeInvariant P) {s : State} (h : P s) (ho : SourcesOk s) (p : Port) (f : Frame) :
    P (s.decidePoll p f) := by
  unfold State.decidePoll
  dsimp only
  split
  · exact I.congr (I.lineQuery h (ho.unrecorded_of_quiet _)) (respond_board _ _ _)
  · split
    · exact I.congr h (respond_board _ _ _)
    · split
      · exact I.congr h (setBus_board _ _)
      · exact I.congr h ((arbiter_board _).trans (setBus_board _ _))

/-! ### WRITE_ENTRY -/

theorem disableSource (I : NoticeInvariant P) {s : State} (h : P s) (i : Src) : P (s.disableSource i) := by
  refine I.congr (I.ended h i (some .disabled)) ?_
  unfold State.disableSource
  dsimp only
  split <;> rfl

theorem enableSource (I : NoticeInvariant P) {s : State} {i : Src} (h : P s) (hn : s.notice i = none) :
    P (s.enableSource i) := by
  have hs (r : SourceRt) : P (s.setSrc i r) := I.congr h (setSrc_board s i r)
  unfold State.enableSource
  dsimp only
  split
  · split
    · exact I.reportArrival (I.congr (hs _) (setLine_board _ _ _)) (fun _ => hn) _
    · exact hs _
  · exact hs _

theorem writeSource (I : NoticeInvariant P) {s : State} (h : P s) (ho : SourcesOk s) (hb : s.stage ≠ .booting)
    (i : Src) (new : SourceCfg) : P (s.writeSource i new) := by
  have hdis : P (if (s.cfg i).enabled && !new.enabled then s.disableSource i else s) := by
    split
    · exact I.disableSource h i
    · exact h
  unfold State.writeSource
  dsimp only
  refine I.triggerIf ?_ _
  split
  · rename_i hen
    have hoff : (s.cfg i).enabled = false := by
      rw [Bool.and_eq_true, Bool.not_eq_true'] at hen
      exact hen.1
    have hd : (s.src i).state = .disabled := by
      by_contra hd
      rw [(ho.enabled hb i).mpr hd] at hoff
      cases hoff
    rw [hoff] at hdis ⊢
    exact I.enableSource (I.congr hdis (setCfg_board _ _ _)) (ho.notice_none (by rw [hd]; simp))
  · exact I.congr hdis (setCfg_board _ _ _)

/-- An accepted PORT write: the port is disabled or enabled, then the limit, then the rest of the entry (R176). -/
theorem writePort (I : NoticeInvariant P) {s : State} (h : P s) (p q : Port) (new : PortCfg) :
    P (s.writePort p q new) := by
  have hstate : ∃ t, (if (s.portCfg q).enabled && !new.enabled then s.disablePort q
      else if !(s.portCfg q).enabled && new.enabled then s.enablePort q else s) = t ∧ P t ∧
        t.portCfg q = s.portCfg q := by
    refine ⟨_, rfl, ?_⟩
    split
    · exact ⟨I.congr (I.detachEffects h q .disabled) (cutLink_board _ _), detachEffects_portCfg s q .disabled q⟩
    · split
      · exact ⟨I.congr h (setEng_board _ _ _), rfl⟩
      · exact ⟨h, rfl⟩
  obtain ⟨t, ht, hPt, hcfg⟩ := hstate
  have hlimit : ∃ u, (if (s.portCfg q).backlog = new.backlog then t else t.setBacklog q new.backlog) = u ∧ P u ∧
      new.backlog = (u.portCfg q).backlog := by
    refine ⟨_, rfl, ?_⟩
    split
    · rename_i he
      exact ⟨hPt, by rw [hcfg, he]⟩
    · exact ⟨I.backlogSet hPt q _, (setBacklog_limit t q _).symm⟩
  obtain ⟨u, hu, hPu, hback⟩ := hlimit
  have hentry : P (u.setPortCfg q new) := I.congr hPu (setPortCfg_board hback)
  unfold State.writePort
  dsimp only
  rw [ht, hu]
  refine I.triggerIf ?_ _
  split
  · exact hentry
  · exact I.congr hentry (setEng_board _ _ _)

theorem decideWrite (I : NoticeInvariant P) {s : State} (h : P s) (ho : SourcesOk s) (hb : s.stage ≠ .booting)
    (p : Port) (f : Frame) : P (s.decideWrite p f) := by
  have hwrite {t : State} (ht : s.applyWrite p f = some t) : P t := by
    unfold State.applyWrite at ht
    dsimp only at ht
    split at ht
    · obtain ⟨i, -, ht⟩ := Option.bind_eq_some_iff.mp ht
      obtain ⟨new, -, rfl⟩ := Option.map_eq_some_iff.mp ht
      exact I.writeSource h ho hb i new
    · obtain ⟨new, -, rfl⟩ := Option.map_eq_some_iff.mp ht
      exact I.congr h rfl
    · obtain ⟨new, -, rfl⟩ := Option.map_eq_some_iff.mp ht
      exact I.ranked h new
    · obtain ⟨q, -, ht⟩ := Option.bind_eq_some_iff.mp ht
      obtain ⟨new, -, rfl⟩ := Option.map_eq_some_iff.mp ht
      exact I.writePort h p q new
    · obtain ⟨new, -, rfl⟩ := Option.map_eq_some_iff.mp ht
      exact I.congr h rfl
    · cases ht
  unfold State.decideWrite
  dsimp only
  split
  · exact I.congr h (respond_board _ _ _)
  · split
    · exact I.congr h (respond_board _ _ _)
    · split
      · exact I.congr h (respond_board _ _ _)
      · rename_i t ht
        unfold State.respondIfOn
        split
        · exact hwrite ht
        · exact I.congr (hwrite ht) (respond_board _ _ _)

theorem execWrite (I : NoticeInvariant P) {s : State} (h : P s) (ho : SourcesOk s) (p : Port) (row : Frame → Bool) :
    P (s.execWrite p row) := I.execKind h ho fun f _ ht hto hb => I.decideWrite ht hto hb p f

end NoticeInvariant

end Sys2Proof.Machine

/-! What survives each event of the notice table and the delivery unit survives every command. -/

namespace Sys2Proof.Machine

variable {P : State → Prop}

namespace NoticeInvariant

/-! ### Start-up and CLEAR_ALL (chapter 11) -/

/-- The lines are queried in turn, each with no record while it is QUIET: a query touches its own line alone (R186). -/
theorem lineQueries (I : NoticeInvariant P) (l : List (Fin 8)) {s : State} (hl : l.Nodup) (h : P s)
    (hq : ∀ k ∈ l, (s.src (Src.ofLine k)).state = .quiet → s.notice (Src.ofLine k) = none) :
    P (l.foldl (fun t k => t.lineQuery k) s) := by
  induction l generalizing s with
  | nil => exact h
  | cons k l ih =>
    obtain ⟨hk, hl⟩ := List.nodup_cons.mp hl
    refine ih hl (I.lineQuery h (hq k List.mem_cons_self)) fun j hj => ?_
    have hne : Src.ofLine j ≠ Src.ofLine k := fun e => hk (ofLine_injective e ▸ hj)
    have hstep := lineQuery_sourceStep s k
    rw [hstep.sources _ hne, hstep.notices _ hne]
    exact hq j (List.mem_cons_of_mem k hj)

/-- A baseline scan begins with no record. -/
theorem beginScan (I : NoticeInvariant P) {s : State} (h : P s) (hn : ∀ i, s.notice i = none) : P s.beginScan := by
  have hscan : P ({ s with stage := .scanning } : State) := I.congr h rfl
  exact I.congr (I.lineQueries (List.finRange 8) (List.nodup_finRange 8) hscan fun k _ _ => hn _)
    ((arbiter_board _).trans (setBus_board _ _))

theorem endAllNotices (I : NoticeInvariant P) {s : State} (h : P s) : P s.endAllNotices :=
  I.passStopped (NoticeInvariant.foldl (P := P) (op := fun t i => t.endNotice i (some .cleared))
    (fun _ i ht => I.ended ht i _) _ (I.congr h (spendFree_board s _)))

theorem acceptClearAll (I : NoticeInvariant P) {s : State} (h : P s) (p : Port) (f : Frame) :
    P (s.acceptClearAll p f) := by
  have hboard : ((s.endAllNotices.clearSources.cancelBusWork).respond p (f.answer .ok [])).board =
      s.endAllNotices.board := (respond_board _ _ _).trans (cancelBusWork_board _)
  refine I.beginScan (I.congr (I.endAllNotices h) hboard) fun i => ?_
  rw [← Option.not_isSome_iff_eq_none, board_isSome hboard, endAllNotices_notice]
  simp

theorem execBootLoadComplete (I : NoticeInvariant P) {s t : State} (h : P s) (ho : SourcesOk s) {fatLow : Bool}
    (ht : execBootLoadComplete fatLow s = .next t) : P t := by
  cases ht
  split
  · rename_i hb
    have hnone (i : Src) : s.notice i = none := ho.notice_none (by rw [(ho.booting hb i).1]; simp)
    have hempty (p : Port) : s.queue p = [] := by
      refine List.eq_nil_iff_forall_not_mem.mpr fun i hi => ?_
      have := I.live h p i hi
      rw [hnone i] at this
      cases this
    have hload : s.loadTables.notices = s.notices ∧ s.loadTables.delivery = s.delivery := by
      unfold State.loadTables
      split <;> exact ⟨rfl, rfl⟩
    refine I.settle (I.beginScan (I.loaded h hempty hload.1 hload.2) fun i => ?_)
    have : s.loadTables.notice i = s.notice i := by simp only [State.notice, hload.1]
    exact this.trans (hnone i)
  · exact h

/-! ### The field bus and the timers -/

theorem endTransaction (I : NoticeInvariant P) {s : State} (h : P s) (t : InFlight) (kind : PrevKind) (ack : AckSlot) :
    P (s.endTransaction t kind ack) := I.congr h (setBus_board _ _)

theorem execPollEnd (I : NoticeInvariant P) {s t : State} (h : P s) (ho : SourcesOk s) {reply : Option FieldReply}
    (ht : execPollEnd reply s = .next t) : P t := by
  cases ht
  split
  · split
    · refine I.settle (I.congr ?_ (foldl_board (fun _ _ => respond_board _ _ _) _ _))
      exact I.handOutcome (I.endTransaction h _ _ _) (ho.endTransaction _ _ _) _ _ _
    · exact h
  · exact h

theorem execBidRoundEnd (I : NoticeInvariant P) {s t : State} (h : P s) (ho : SourcesOk s) {address : BitVec 6}
    {report : BitVec 16} {check : BitVec 8} (ht : execBidRoundEnd address report check s = .next t) : P t := by
  cases ht
  split
  · rename_i g _
    split
    · have hend (kind : PrevKind) (ack : AckSlot) := I.endTransaction h g kind ack
      have hout (kind : PrevKind) (ack : AckSlot) (i : Src) (o : BusOutcome) :
          P ((s.endTransaction g kind ack).handOutcome g i o) :=
        I.handOutcome (hend kind ack) (ho.endTransaction _ _ _) _ _ _
      refine I.settle ?_
      unfold State.bidEffect
      split
      · exact I.congr (hout _ _ _ _) (setBus_board _ _)
      · exact I.congr (hout _ _ _ _) (bidFailed_board _)
      · exact I.congr (hend _ _) (bidFailed_board _)
      · exact I.congr (hend _ _) (bidFailed_board _)
    · exact h
  · exact h

theorem execClearEnd (I : NoticeInvariant P) {s t : State} (h : P s) (ho : SourcesOk s) {reply : Option FieldReply}
    (ht : execClearEnd reply s = .next t) : P t := by
  cases ht
  split
  · rename_i g _
    split
    · have hend (ack : AckSlot) := I.endTransaction h g .work ack
      refine I.settle ?_
      split
      · exact hend _
      · split
        · exact I.handOutcome (hend _) (ho.endTransaction _ _ _) _ _ _
        · exact I.clearEffect (hend _) (ho.endTransaction _ _ _) _ _
    · exact h
  · exact h

theorem execScanStepEnd (I : NoticeInvariant P) {s t : State} (h : P s) (ho : SourcesOk s) {reply : Option FieldReply}
    (ht : execScanStepEnd reply s = .next t) : P t := by
  cases ht
  split
  · split
    · refine I.settle (I.congr ?_ (moveCursor_board _ _))
      exact I.handOutcome (I.endTransaction h _ _ _) (ho.endTransaction _ _ _) _ _ _
    · exact h
  · exact h

theorem execLineSample (I : NoticeInvariant P) {s t : State} (h : P s) (ho : SourcesOk s) {levels : BitVec 8}
    (ht : execLineSample levels s = .next t) : P t := by
  have roses (l : List Src) {u : State} (hu : P u) (hou : SourcesOk u) : P (l.foldl State.lineRose u) := by
    induction l generalizing u with
    | nil => exact hu
    | cons i l ih => exact ih (I.lineRose hu hou i) (lineRose_sourcesOk hou i)
  cases ht
  exact I.settle (roses _ (I.congr h (tickTimers_board s)) (ho.of_sourceView (tickTimers_sourceView s)))

theorem execOfferExpiry (I : NoticeInvariant P) {s t : State} (h : P s) {p : Port} {i : Src}
    (ht : execOfferExpiry p i s = .next t) : P t := by
  cases ht
  split
  · exact h
  · rename_i n hn
    split
    · rename_i hc
      exact I.settle (I.offerDropped h hn (Bool.and_eq_true _ _ ▸ hc).1 (withdraw_board _ _ _))
    · exact h

theorem execServiceExpiry (I : NoticeInvariant P) {s t : State} (h : P s) {i : Src}
    (ht : execServiceExpiry i s = .next t) : P t := by
  cases ht
  split
  · exact h
  · rename_i n hn
    split
    · rename_i p hc
      split
      · exact I.settle (I.claimRevoked h hn hc ((occur_board _ _ _).trans (withdraw_board _ _ _))).1
      · exact h
    · exact h
    · exact h

/-! ### The commands -/

/-- Every command keeps P. -/
theorem exec (I : NoticeInvariant P) {c : Instr} {s t : State} (h : P s) (ho : SourcesOk s)
    (ht : exec c s = .next t) : P t := by
  cases c with
  | fullReset => cases ht; exact I.reset s
  | bootLoadComplete fatLow => exact I.execBootLoadComplete h ho ht
  | lineSample levels => exact I.execLineSample h ho ht
  | offerExpiry p i => exact I.execOfferExpiry h ht
  | serviceExpiry i => exact I.execServiceExpiry h ht
  | bidRoundEnd address report check => exact I.execBidRoundEnd h ho ht
  | pollEnd reply => exact I.execPollEnd h ho ht
  | clearEnd reply => exact I.execClearEnd h ho ht
  | scanStepEnd reply => exact I.execScanStepEnd h ho ht
  | attach p => cases ht; exact I.execKind h ho fun f _ hu _ _ => I.decideAttach hu p f
  | detach p => cases ht; exact I.execKind h ho fun f _ hu _ _ => I.decideDetach hu p f
  | resume p => cases ht; exact I.execKind h ho fun f _ hu _ _ => I.decideResume hu p f
  | claim p => cases ht; exact I.execKind h ho fun f _ hu _ _ => I.decideClaim hu p f
  | release p => cases ht; exact I.execKind h ho fun f _ hu _ _ => I.decideRelease hu p f
  | close p => cases ht; exact I.execKind h ho fun f _ hu _ _ => I.decideClose hu p f
  | poll p => cases ht; exact I.execKind h ho fun f _ hu hou _ => I.decidePoll hu hou p f
  | sweep p => cases ht; exact I.execKind h ho fun f _ hu _ _ => I.congr (I.passTriggered hu) (respond_board _ _ _)
  | clearAll p =>
    cases ht
    refine I.execKind h ho fun f u hu _ _ => ?_
    split
    · exact I.acceptClearAll hu p f
    · exact I.congr hu (respond_board _ _ _)
  | sourceDisable p => cases ht; exact I.execWrite h ho p _
  | sourceEnable p => cases ht; exact I.execWrite h ho p _
  | writeSourceEntry p => cases ht; exact I.execWrite h ho p _
  | writeClassEntry p => cases ht; exact I.execWrite h ho p _
  | writeOrder p => cases ht; exact I.execWrite h ho p _
  | portEnable p => cases ht; exact I.execWrite h ho p _
  | portDisable p => cases ht; exact I.execWrite h ho p _
  | backlogLimitRaise p => cases ht; exact I.execWrite h ho p _
  | backlogLimitLower p => cases ht; exact I.execWrite h ho p _
  | linkRateWrite p => cases ht; exact I.execWrite h ho p _
  | writePortEntry p => cases ht; exact I.execWrite h ho p _
  | writeDeviceEntry p => cases ht; exact I.execWrite h ho p _
  | hold p =>
    cases ht
    refine I.execKind_of_board h ho fun f u => ?_
    unfold State.decideHold
    split <;> rfl
  | readEntry p => cases ht; exact I.execKind_of_board h ho fun f u => rfl
  | takeRight p =>
    cases ht
    refine I.execKind_of_board h ho fun f u => ?_
    unfold State.decideTakeRight
    repeat' split
    all_goals rfl
  | giveRight p =>
    cases ht
    refine I.execKind_of_board h ho fun f u => ?_
    unfold State.decideGiveRight
    split <;> rfl
  | store p =>
    cases ht
    refine I.execKind_of_board h ho fun f u => ?_
    unfold State.decideStore
    repeat' split
    all_goals rfl
  | status p => cases ht; exact I.execKind_of_board h ho fun f u => rfl
  | ackStatus p => cases ht; exact I.execKind_of_board h ho fun f u => rfl
  | resumeField p fatLow =>
    cases ht
    refine I.execKind_of_board h ho fun f u => ?_
    unfold State.decideResumeField
    dsimp only
    split
    · rw [arbiter_board]; rfl
    · rfl
  | unknownRequest p => cases ht; exact I.execHead h ho fun f u hu _ _ => I.congr hu (respond_board _ _ _)
  | linkCharacter p x =>
    cases ht
    refine I.congr h ?_
    repeat' split
    all_goals first
      | rfl
      | exact takeChar_board _ _ _ _
  | frameIdleTimeout p =>
    cases ht
    refine I.congr h ?_
    repeat' split
    all_goals rfl
  | huntEnd p => cases ht; refine I.congr h ?_; split <;> rfl
  | lineReturnToMark p =>
    cases ht
    refine I.congr h ?_
    repeat' split
    all_goals rfl
  | linkBreak p =>
    cases ht
    split
    · exact I.settle (I.triggerIf (I.congr (I.detachEffects h p .detached) (cutLink_board _ _)) _)
    · exact h
  | frameSent p =>
    cases ht
    split
    · exact h
    · exact I.settle (I.congr h (frameEnded_board _ _ _))
    · exact I.settle (I.congr h (setEng_board _ _ _))
  | fatLow =>
    cases ht
    split
    · exact h
    · exact I.settle (I.congr h ((arbiter_board _).trans (setBus_board _ _)))
  | gapEnd fatLow =>
    cases ht
    split
    · exact I.settle (I.congr h ((arbiter_board _).trans (setBus_board _ _)))
    · exact h
  | passWalk =>
    cases ht
    split
    · exact h
    · exact I.settle (I.passStepped h)
  | storeComplete content check =>
    cases ht
    split
    · exact h
    · exact I.settle (I.congr h (completeStore_board _ _ _ _ _))

/-- Every step keeps P. -/
theorem step (I : NoticeInvariant P) {s t : State} (h : P s) (ho : SourcesOk s) (ht : step s = .next t) : P t := by
  unfold Machine.step at ht
  split at ht
  · cases ht
    exact h
  · rename_i c rest _
    have hrest : P { s with pending := rest } := I.congr h rfl
    exact I.exec hrest (ho.of_sourceView rfl) ht

end NoticeInvariant

end Sys2Proof.Machine

/-! Every step keeps the queues and the stranded list in their orders (O59). -/

namespace Sys2Proof.Machine

/-! ### The orders of queues and of the stranded list (R47, R68, R76) -/

/-- The clauses of `OrdersOk` that look at the board. -/
structure InOrder (s : State) : Prop where
  queues : ∀ p, (s.queue p).Pairwise (fun i j => keyBefore (s.queueKey j) (s.queueKey i) = false)
  stranded : s.stranded.Pairwise (fun i j => keyBefore (s.ageKey j) (s.ageKey i) = false)
  next : ∀ i n, s.notice i = some n → n.order < s.notices.nextOrder
  live : ∀ p, ∀ i ∈ s.queue p, (s.notice i).isSome = true
  strandedLive : ∀ i ∈ s.stranded, (s.notice i).isSome = true

/-- The class and the opening order of a source's notice. -/
def State.rankAndOrder (s : State) (i : Src) : Option (Fin 8 × Nat) := (s.notice i).map (fun n => (n.cls, n.order))

theorem queueKey_congr {s t : State} {i : Src} (hr : t.config.tables.order = s.config.tables.order)
    (h : t.rankAndOrder i = s.rankAndOrder i) : t.queueKey i = s.queueKey i := by
  have key (u : State) : u.queueKey i =
      ((u.rankAndOrder i).map (fun k => (u.config.tables.order.idxOf k.1, k.2))).getD (0, 0) := by
    unfold State.queueKey State.rankOf State.rankAndOrder
    cases u.notice i <;> rfl
  rw [key, key, hr, h]

theorem ageKey_congr {s t : State} {i : Src} (h : t.rankAndOrder i = s.rankAndOrder i) :
    t.ageKey i = s.ageKey i := by
  have key (u : State) : u.ageKey i = (0, ((u.rankAndOrder i).map Prod.snd).getD 0) := by
    unfold State.ageKey State.openingOrder State.rankAndOrder
    cases u.notice i <;> rfl
  rw [key, key, h]

theorem rankAndOrder_isSome {s t : State} {i : Src} (h : t.rankAndOrder i = s.rankAndOrder i) :
    (t.notice i).isSome = (s.notice i).isSome := by
  have := congrArg Option.isSome h
  simpa [State.rankAndOrder] using this

theorem rankAndOrder_of_notice {s t : State} {i : Src} (h : t.notice i = s.notice i) :
    t.rankAndOrder i = s.rankAndOrder i := by
  unfold State.rankAndOrder
  rw [h]

theorem rankAndOrder_of_board {s t : State} (h : t.board = s.board) (i : Src) :
    t.rankAndOrder i = s.rankAndOrder i := by
  have key (u : State) : u.rankAndOrder i =
      ((u.notice i).map Notice.standing).map (fun x => (x.cls, x.order)) := by
    unfold State.rankAndOrder
    cases u.notice i <;> rfl
  rw [key, key, board_standing h]

theorem modNotice_rankAndOrder (s : State) (i j : Src) {f : Notice → Notice}
    (hf : ∀ n, (f n).cls = n.cls ∧ (f n).order = n.order) : (s.modNotice i f).rankAndOrder j = s.rankAndOrder j := by
  unfold State.rankAndOrder
  rw [modNotice_notice]
  split
  · rename_i hij
    rw [hij]
    cases s.notice j <;> simp [hf]
  · rfl

/-- Queues and stranded list that have lost members at most, and whose members stand as they did. -/
theorem InOrder.of_sublists {s t : State} (h : InOrder s) (hr : t.config.tables.order = s.config.tables.order)
    (hq : ∀ p, (t.queue p).Sublist (s.queue p)) (hs : t.stranded.Sublist s.stranded)
    (hk : ∀ i, (∃ p, i ∈ t.queue p) ∨ i ∈ t.stranded → t.rankAndOrder i = s.rankAndOrder i)
    (hn : ∀ i n, t.notice i = some n → n.order < t.notices.nextOrder) : InOrder t where
  queues p := by
    refine ((h.queues p).sublist (hq p)).imp_of_mem fun hi hj hij => ?_
    rwa [queueKey_congr hr (hk _ (.inl ⟨p, hi⟩)), queueKey_congr hr (hk _ (.inl ⟨p, hj⟩))]
  stranded := by
    refine (h.stranded.sublist hs).imp_of_mem fun hi hj hij => ?_
    rwa [ageKey_congr (hk _ (.inr hi)), ageKey_congr (hk _ (.inr hj))]
  next := hn
  live p i hi := by
    rw [rankAndOrder_isSome (hk i (.inl ⟨p, hi⟩))]
    exact h.live p i ((hq p).subset hi)
  strandedLive i hi := by
    rw [rankAndOrder_isSome (hk i (.inr hi))]
    exact h.strandedLive i (hs.subset hi)

/-- Records that stand as they did are younger than none to open. -/
theorem InOrder.next_of_rankAndOrder {s t : State} (h : InOrder s) (ho : s.notices.nextOrder ≤ t.notices.nextOrder)
    {i : Src} (hk : t.rankAndOrder i = s.rankAndOrder i) {n : Notice} (hn : t.notice i = some n) :
    n.order < t.notices.nextOrder := by
  have hk : some (n.cls, n.order) = (s.notice i).map (fun n => (n.cls, n.order)) := by
    refine Eq.trans ?_ hk
    rw [State.rankAndOrder, hn]
    rfl
  obtain ⟨m, hm, he⟩ := Option.map_eq_some_iff.mp hk.symm
  have hlt := h.next i m hm
  have : m.order = n.order := congrArg Prod.snd he
  omega

/-- A change that keeps class and opening order of every record. -/
theorem InOrder.of_rankAndOrder {s t : State} (h : InOrder s)
    (hr : t.config.tables.order = s.config.tables.order) (hq : ∀ p, (t.queue p).Sublist (s.queue p))
    (hs : t.stranded.Sublist s.stranded) (ho : s.notices.nextOrder ≤ t.notices.nextOrder)
    (hk : ∀ i, t.rankAndOrder i = s.rankAndOrder i) : InOrder t :=
  h.of_sublists hr hq hs (fun i _ => hk i) fun i _ hn => h.next_of_rankAndOrder ho (hk i) hn

theorem InOrder.congr {s t : State} (h : InOrder s) (hb : t.board = s.board) : InOrder t :=
  h.of_rankAndOrder (congrArg Board.ranks hb) (fun p => (board_queue hb p).symm ▸ List.Sublist.refl _)
    (show t.stranded.Sublist s.stranded by
      rw [show t.stranded = s.stranded from congrArg Board.stranded hb])
    (congrArg Board.nextOrder hb : t.notices.nextOrder = s.notices.nextOrder).ge (rankAndOrder_of_board hb)

theorem InOrder.modNotice {s : State} (h : InOrder s) (i : Src) {f : Notice → Notice}
    (hf : ∀ n, (f n).cls = n.cls ∧ (f n).order = n.order) : InOrder (s.modNotice i f) := by
  refine h.of_rankAndOrder (by rw [modNotice_config]) (fun p => ?_) ?_ ?_
    (modNotice_rankAndOrder s i · hf)
  · rw [modNotice_queue]
  · rw [(modNotice_rest s i f).2.2.2]
  · unfold State.modNotice
    split <;> exact le_rfl

/-- A change of the delivery unit that adds no reference. -/
theorem InOrder.of_offDelivery {s t : State} (h : InOrder s) (ht : t.offDelivery = s.offDelivery)
    (hq : ∀ p, (t.queue p).Sublist (s.queue p)) : InOrder t := by
  obtain ⟨-, -, hn, -, -, -, hc⟩ := offDelivery_fields ht
  have hst : t.stranded = s.stranded := by simp only [State.stranded, hn]
  exact h.of_rankAndOrder (by rw [hc]) hq (hst ▸ List.Sublist.refl _) (by rw [hn])
    fun i => rankAndOrder_of_notice (by simp only [State.notice, hn])

theorem InOrder.setQueue {s : State} (h : InOrder s) {p : Port} {l : List Src} (hl : l.Sublist (s.queue p)) :
    InOrder (s.setQueue p l) :=
  h.of_offDelivery rfl fun q => by
    rw [State.queue_setQueue]
    split
    · subst_vars
      exact hl
    · exact List.Sublist.refl _

theorem InOrder.setPass {s : State} (h : InOrder s) (l : List Src) (b : Bool) : InOrder (s.setPass l b) :=
  h.of_offDelivery rfl fun _ => List.Sublist.refl _

theorem InOrder.triggerPass {s : State} (h : InOrder s) : InOrder s.triggerPass :=
  h.of_offDelivery (triggerPass_offDelivery s) fun p => triggerPass_queue s p ▸ List.Sublist.refl _

theorem InOrder.removeRef {s : State} (h : InOrder s) (i : Src) (p : Port) : InOrder (s.removeRef i p) :=
  h.of_offDelivery (removeRef_offDelivery s i p) fun q => by
    rw [removeRef_queue]
    split
    · subst_vars
      exact List.filter_sublist
    · exact List.Sublist.refl _

theorem InOrder.removeRefs {s : State} (h : InOrder s) (i : Src) : InOrder (s.removeRefs i) :=
  NoticeInvariant.foldl (fun _ p ht => ht.removeRef i p) _ h

theorem InOrder.setNotice {s : State} (h : InOrder s) {i : Src} {n m : Notice} (hn : s.notice i = some n)
    (hc : m.cls = n.cls) (ho : m.order = n.order) : InOrder (s.setNotice i (some m)) := by
  have key : s.modNotice i (fun _ => m) = s.setNotice i (some m) := by
    unfold State.modNotice
    rw [hn]
  refine h.of_rankAndOrder rfl (fun _ => List.Sublist.refl _) (List.Sublist.refl _) le_rfl fun j => ?_
  unfold State.rankAndOrder
  rw [State.notice_setNotice]
  split
  · subst_vars
    rw [hn]
    simp [hc, ho]
  · rfl

/-! ### Walks, openings and the end of a notice -/

/-- A reference is inserted in the queue's order (R76). -/
theorem InOrder.insertRef {s : State} (h : InOrder s) {i : Src} (hi : (s.notice i).isSome = true) (p : Port) :
    InOrder (s.insertRef p i) where
  queues q := by
    rw [insertRef_queue]
    split
    · exact insertByKey_sorted s.queueKey i (h.queues p)
    · exact h.queues q
  stranded := h.stranded
  next := h.next
  live q j hj := by
    rw [insertRef_queue] at hj
    split at hj
    · rcases (mem_insertByKey _ _ _ _).mp hj with rfl | hj
      · exact hi
      · exact h.live p j hj
    · exact h.live q j hj
  strandedLive := h.strandedLive

theorem InOrder.setStranded {s : State} (h : InOrder s) {l : List Src} (hl : l.Sublist s.stranded) :
    InOrder (s.setStranded l) :=
  h.of_rankAndOrder rfl (fun _ => List.Sublist.refl _) hl le_rfl fun _ => rfl

theorem InOrder.giveRef {s : State} (h : InOrder s) {i : Src} (hi : (s.notice i).isSome = true) (p : Port) :
    InOrder (s.giveRef i p) :=
  ((h.insertRef hi p).modNotice i (f := fun n => { n with state := .waiting }) fun _ => ⟨rfl, rfl⟩).setStranded
    List.filter_sublist

/-- A notice joins the stranded list by opening order (R69). -/
theorem InOrder.strand {s : State} (h : InOrder s) {i : Src} (hi : (s.notice i).isSome = true) :
    InOrder (s.strand i) := by
  have hlisted : InOrder (s.setStranded (insertByKey s.ageKey i s.stranded)) := {
    queues := h.queues
    stranded := insertByKey_sorted s.ageKey i h.stranded
    next := h.next
    live := h.live
    strandedLive := fun j hj => by
      rcases (mem_insertByKey _ _ _ _).mp hj with rfl | hj
      · exact hi
      · exact h.strandedLive j hj }
  refine (hlisted.modNotice i (f := fun n => { n with state := .stranded, tried := PortSet.empty })
    fun _ => ⟨rfl, rfl⟩).congr ?_
  unfold State.strand State.modNotice
  rw [latchRisen_board]
  show _ = (match s.notice i with | none => _ | some n => _ : State).board
  cases s.notice i <;> rfl

theorem InOrder.placeRefs {s : State} (h : InOrder s) {i : Src} (hi : (s.notice i).isSome = true) (n : Notice) :
    InOrder (s.placeRefs i n) := by
  unfold State.placeRefs
  split
  · split
    · exact h.giveRef hi _
    · exact h
  · generalize (s.cfg i).route.ports = l
    induction l generalizing s with
    | nil => exact h
    | cons p l ih =>
      rw [List.foldl_cons]
      split
      · rename_i he
        exact ih (h.giveRef hi p) (((giveRef_walkStep (eligible_notReferenced he)).isSome i).trans hi)
      · exact ih h hi

theorem InOrder.walk {s : State} (h : InOrder s) (i : Src) : InOrder (s.walk i) := by
  unfold State.walk
  split
  · exact h
  · rename_i n hn
    have hi : (s.notice i).isSome = true := by rw [hn]; rfl
    dsimp only
    split
    · exact h.placeRefs hi n
    · exact (h.placeRefs hi n).strand (((placeRefs_walkStep s i n).isSome i).trans hi)

theorem InOrder.walkIfBare {s : State} (h : InOrder s) (i : Src) : InOrder (s.walkIfBare i) := by
  unfold State.walkIfBare
  split
  · exact h
  · exact h.walk i

/-- A notice that opens is younger than every other (R47). -/
theorem InOrder.openNotice {s : State} (h : InOrder s) {i : Src} (hn : s.notice i = none) (conds : CodeSet) :
    InOrder (s.openNotice i conds) := by
  have hother (j : Src) (hj : j ≠ i) : (s.recordOpening i conds).rankAndOrder j = s.rankAndOrder j :=
    rankAndOrder_of_notice ((recordOpening_sourceStep s i conds).notices j hj)
  have hnext : s.notices.nextOrder ≤ (s.recordOpening i conds).notices.nextOrder := Nat.le_succ _
  have hrec : InOrder (s.recordOpening i conds) := by
    refine h.of_sublists rfl (fun p => List.Sublist.refl _) (List.Sublist.refl _) (fun j hj => hother j ?_)
      fun j m hm => ?_
    · rintro rfl
      have : (s.notice j).isSome = true := hj.elim (fun ⟨p, hp⟩ => h.live p j hp) (h.strandedLive j)
      rw [hn] at this
      cases this
    · by_cases hj : j = i
      · subst hj
        rw [recordOpening_notice] at hm
        cases hm
        exact Nat.lt_succ_self _
      · exact h.next_of_rankAndOrder hnext (hother j hj) hm
  exact hrec.walk i

/-- A record goes that no queue refers to, and its place on the stranded list with it. -/
theorem InOrder.erase {s : State} (h : InOrder s) {i : Src} (hq : ∀ p, i ∉ s.queue p) :
    InOrder ((s.setNotice i none).setStranded (s.stranded.filter (fun j => j != i))) := by
  have hother (j : Src) (hj : j ≠ i) : ((s.setNotice i none).setStranded
      (s.stranded.filter (fun j => j != i))).rankAndOrder j = s.rankAndOrder j :=
    rankAndOrder_of_notice (by rw [State.notice_setStranded, State.notice_setNotice, if_neg (Ne.symm hj)])
  refine h.of_sublists rfl (fun p => List.Sublist.refl _) List.filter_sublist (fun j hj => hother j ?_)
    fun j m hm => ?_
  · rintro rfl
    rcases hj with ⟨p, hp⟩ | hj
    · exact hq p hp
    · simp at hj
  · by_cases hj : j = i
    · subst hj
      simp at hm
    · exact h.next_of_rankAndOrder (t := (s.setNotice i none).setStranded _) le_rfl (hother j hj) hm

theorem InOrder.prunePass {s : State} (h : InOrder s) (i : Src) : InOrder (s.prunePass i) :=
  h.of_offDelivery (prunePass_offDelivery s i) fun p => prunePass_queue s i p ▸ List.Sublist.refl _

theorem InOrder.endNotice {s : State} (h : InOrder s) (i : Src) (r : Option Reason) : InOrder (s.endNotice i r) := by
  have erased {t : State} (ht : InOrder t) : InOrder ((t.eraseNotice i).prunePass i) := by
    have hr := ht.removeRefs i
    have hqueue := removeRefs_queue t i
    obtain ⟨-, -, hn, -⟩ := offDelivery_fields (removeRefs_offDelivery t i)
    refine InOrder.prunePass ?_ i
    unfold State.eraseNotice
    rw [show t.stranded = (t.removeRefs i).stranded by simp only [State.stranded, hn]]
    exact hr.erase fun p => by simp [hqueue]
  unfold State.endNotice
  split
  · exact h
  · exact erased (h.congr (withdrawAll_board s i _ _))
  · exact erased h

/-! ### Every event keeps the orders -/

theorem InOrder.dropOffer {s : State} (h : InOrder s) (p : Port) (i : Src) : InOrder (s.dropOffer p i) :=
  h.modNotice i fun _ => ⟨rfl, rfl⟩

theorem InOrder.revokeClaim {s : State} (h : InOrder s) (p : Port) (i : Src) : InOrder (s.revokeClaim p i) :=
  h.modNotice i fun _ => ⟨rfl, rfl⟩

theorem InOrder.revokeAll {s : State} (h : InOrder s) (p : Port) : InOrder (s.revokeAll p) :=
  NoticeInvariant.foldl (fun _ i ht => (ht.revokeClaim p i).walkIfBare i) _
    (NoticeInvariant.foldl (fun _ i ht => (ht.dropOffer p i).walkIfBare i) _ h)

theorem InOrder.addTried {s : State} (h : InOrder s) (p : Port) (i : Src) : InOrder (s.addTried p i) :=
  h.modNotice i fun _ => ⟨rfl, rfl⟩

theorem InOrder.emptyQueue {s : State} (h : InOrder s) (p : Port) : InOrder (s.emptyQueue p) :=
  NoticeInvariant.foldl
    (fun t i ht => ((ht.setQueue (List.tail_sublist (t.queue p))).addTried p i).walkIfBare i) _ h

theorem InOrder.setBacklog {s : State} (h : InOrder s) (q : Port) (limit : Byte) : InOrder (s.setBacklog q limit) := by
  have hentry : InOrder (s.setPortCfg q { s.portCfg q with backlog := limit }) :=
    h.of_rankAndOrder rfl (fun _ => List.Sublist.refl _) (List.Sublist.refl _) le_rfl fun _ => rfl
  have hcut := hentry.setQueue (p := q) (List.take_sublist limit.toNat (s.queue q))
  exact NoticeInvariant.foldl (fun _ i ht => (ht.addTried q i).walkIfBare i) _ (hcut.congr (latchRisen_board _ _))

theorem InOrder.makeClaim {s : State} (h : InOrder s) {i : Src} {n : Notice} (hn : s.notice i = some n) (p : Port) :
    InOrder (s.makeClaim p i n) := by
  refine InOrder.removeRefs ?_ i
  refine (h.setNotice hn (m := { n with state := .claimed p, offers := PortSet.empty, offerTimers := PerPort.all none })
    rfl rfl).congr (foldl_board (fun t q => ?_) _ _)
  split <;> simp

theorem InOrder.passStep {s : State} (h : InOrder s) : InOrder s.passStep := by
  have hend {t : State} (ht : InOrder t) : InOrder t.endPass :=
    ht.of_offDelivery (endPass_offDelivery t) fun p => endPass_queue t p ▸ List.Sublist.refl _
  unfold State.passStep
  split
  · exact h
  · dsimp only
    split
    · exact hend ((h.setPass _ _).walk _)
    · exact hend (h.setPass _ _)

/-- Every queue is put in the order of the new rank order (R78). -/
theorem InOrder.writeRank {s : State} (h : InOrder s) (order : List (Fin 8)) : InOrder (s.writeRank order) := by
  unfold State.writeRank
  split
  · exact h
  · generalize hu : ({ s with config := { s.config with tables := { s.config.tables with order := order } } } : State)
      = u
    have hn : u.notices = s.notices := by rw [← hu]
    have hd : u.delivery = s.delivery := by rw [← hu]
    have hqueue (p : Port) : u.reorderQueues.queue p = sortByKey u.queueKey (s.queue p) := by
      show (PerPort.build _).get p = _
      rw [PerPort.get_build]
      simp only [State.queue, hd]
    have hnot (i : Src) : u.reorderQueues.notice i = s.notice i := by
      show u.notice i = s.notice i
      simp only [State.notice, hn]
    have hold : InOrder ({ u with delivery := { u.delivery with queues := PerPort.all [] } } : State) := {
      queues := fun p => by
        show List.Pairwise _ ((PerPort.all []).get p)
        rw [PerPort.get_all]
        exact List.Pairwise.nil
      stranded := by rw [← hu]; exact h.stranded
      next := by rw [← hu]; exact h.next
      live := fun p i hi => by
        have hi : i ∈ (PerPort.all ([] : List Src)).get p := hi
        rw [PerPort.get_all] at hi
        cases hi
      strandedLive := by rw [← hu]; exact h.strandedLive }
    exact {
      queues := fun p => by rw [hqueue]; exact sortByKey_sorted u.queueKey _
      stranded := hold.stranded
      next := hold.next
      live := fun p i hi => by
        rw [hqueue, (sortByKey_perm _ _).mem_iff] at hi
        rw [hnot]
        exact h.live p i hi
      strandedLive := hold.strandedLive }

/-- Empty queues are in order under every rank order (R183). -/
theorem InOrder.load {s t : State} (h : InOrder s) (hq : ∀ p, s.queue p = []) (hn : t.notices = s.notices)
    (hd : t.delivery = s.delivery) : InOrder t := by
  have hqueue (p : Port) : t.queue p = [] := (congrArg (fun d => d.queues.get p) hd).trans (hq p)
  have hnot (i : Src) : t.notice i = s.notice i := by simp only [State.notice, hn]
  have hstr : t.stranded = s.stranded := by simp only [State.stranded, hn]
  exact {
    queues := fun p => by rw [hqueue]; exact List.Pairwise.nil
    stranded := by
      rw [hstr, show t.ageKey = s.ageKey from funext fun i => ageKey_congr (rankAndOrder_of_notice (hnot i))]
      exact h.stranded
    next := fun i n hi => by rw [hn]; exact h.next i n (hnot i ▸ hi)
    live := fun p i hi => by rw [hqueue] at hi; cases hi
    strandedLive := fun i hi => by rw [hnot]; exact h.strandedLive i (hstr ▸ hi) }

theorem notice_reset (s : State) (i : Src) : s.fullReset.notice i = none := by
  show (Vector.replicate 56 (none : Option Notice)).get i = none
  simp [Vector.get]

theorem queue_reset (s : State) (p : Port) : s.fullReset.queue p = [] := PerPort.get_all _ p

theorem fullReset_inOrder (s : State) : InOrder s.fullReset where
  queues p := by rw [queue_reset]; exact List.Pairwise.nil
  stranded := List.Pairwise.nil
  next i n hn := by rw [notice_reset] at hn; cases hn
  live p i hi := by rw [queue_reset] at hi; cases hi
  strandedLive i hi := by cases hi

/-- Every event of the notice table and the delivery unit keeps the orders. -/
theorem inOrder_invariant : NoticeInvariant InOrder where
  congr h hb := h.congr hb
  live h := h.live
  opened h hn conds := h.openNotice hn conds
  offerDropped h _ _ hb := ((h.dropOffer _ _).congr hb).walkIfBare _
  claimRevoked h _ _ hb := ⟨((h.revokeClaim _ _).congr hb).walk _, ((h.revokeClaim _ _).congr hb).walkIfBare _⟩
  revoked h p := h.revokeAll p
  queueEmptied h p := h.emptyQueue p
  backlogSet h p limit := h.setBacklog p limit
  headTaken h _ hn := (h.removeRef _ _).setNotice ((removeRef_notice _ _ _ _).trans hn) rfl rfl
  claimed h hn _ := h.makeClaim hn _
  ended h i r := h.endNotice i r
  passTriggered h := h.triggerPass
  passStepped h := h.passStep
  passStopped h := h.setPass _ _
  ranked h order := h.writeRank order
  loaded h hq hn hd := h.load hq hn hd
  reset := fullReset_inOrder

theorem OrdersOk.inOrder {s : State} (h : OrdersOk s) : InOrder s :=
  ⟨h.queues, h.stranded, h.next, h.live, h.strandedLive⟩

/-- Through BOOTING no record exists (R18), so that no queue has a reference to one. -/
theorem queue_empty_of_booting {s : State} (ho : SourcesOk s) (hlive : ∀ p, ∀ i ∈ s.queue p, (s.notice i).isSome = true)
    (hb : s.stage = .booting) (p : Port) : s.queue p = [] := by
  refine List.eq_nil_iff_forall_not_mem.mpr fun i hi => ?_
  have := hlive p i hi
  rw [ho.notice_none (by rw [(ho.booting hb i).1]; simp)] at this
  cases this

/-- Settles O59: each event that changes queues, records or the stranded list keeps the orders (`inOrder_invariant`),
and every command is made of such events (`NoticeInvariant.step`). -/
theorem stepKeepsTheOrders : Obligations.StepKeepsTheOrders := by
  unfold Obligations.StepKeepsTheOrders
  intro s t h ht
  have horder : InOrder t := inOrder_invariant.step h.inOrder h.sources ht
  have hsources : SourcesOk t := stepKeepsRecordsWithOpenSources s t h.sources ht
  exact {
    queues := horder.queues
    stranded := horder.stranded
    next := horder.next
    live := horder.live
    strandedLive := horder.strandedLive
    sources := hsources
    booting := queue_empty_of_booting hsources horder.live }

end Sys2Proof.Machine

/-! SUPPORT. The places of notices as they stand between two events, and in the midst of one. -/

namespace Sys2Proof.Machine

/-! ### The places of one notice (R51 to R54, R68) -/

/-- How a record fits the queues and the stranded list: `queued` says which queues refer to it, `listed` whether the
stranded list holds it. -/
structure Standing.Fits (n : Standing) (queued : Port → Prop) (listed : Prop) : Prop where
  refs : ∀ p, queued p → n.state = .waiting ∧ n.offers.has p = false ∧ n.tried.has p = false
  directed : n.mode = .directed → ∀ p q, (queued p ∨ n.offers.has p = true) → (queued q ∨ n.offers.has q = true) → p = q
  offered : ∀ p, n.offers.has p = true → n.state = .waiting ∧ n.tried.has p = false
  claimed : ∀ p, n.state = .claimed p → n.tried.has p = false
  listed : listed ↔ n.state = .stranded
  untried : n.state = .stranded → n.tried = PortSet.empty

/-- A WAITING notice stands somewhere (R53). -/
def Standing.Based (n : Standing) (queued : Port → Prop) : Prop :=
  n.state = .waiting → ∃ p, queued p ∨ n.offers.has p = true

/-- What the places of notices look at of one source. -/
structure PlaceView where
  record : Option Standing
  queued : Port → Prop
  listed : Prop

def State.placeView (s : State) (i : Src) : PlaceView :=
  ⟨(s.notice i).map Notice.standing, fun p => i ∈ s.queue p, i ∈ s.stranded⟩

/-- What stands at a source, but that a WAITING notice may stand nowhere. -/
def PlaceView.Sound (v : PlaceView) : Prop :=
  (v.record = none → (∀ p, ¬ v.queued p) ∧ ¬ v.listed) ∧ ∀ n, v.record = some n → n.Fits v.queued v.listed

def PlaceView.Based (v : PlaceView) : Prop := ∀ n, v.record = some n → n.Based v.queued

/-- A notice that stands at fewer queues. -/
theorem Standing.Fits.mono {n : Standing} {queued queued' : Port → Prop} {listed : Prop} (h : n.Fits queued listed)
    (hq : ∀ p, queued' p → queued p) : n.Fits queued' listed :=
  ⟨fun p hp => h.refs p (hq p hp), fun hm p q hp hr => h.directed hm p q (hp.imp_left (hq p)) (hr.imp_left (hq q)),
    h.offered, h.claimed, h.listed, h.untried⟩

section

variable {n : Standing} {queued : Port → Prop} {listed : Prop} {p : Port}

/-- A notice that is neither WAITING nor offered nor referenced stands nowhere (R54, R68). -/
theorem Standing.Fits.bare (h : n.Fits queued listed) (hw : n.state ≠ .waiting) (q : Port) :
    ¬ (queued q ∨ n.offers.has q = true) :=
  not_or.mpr ⟨fun hq => hw (h.refs q hq).1, fun hq => hw (h.offered q hq).1⟩

/-- A reference joins: at a port neither offered nor tried, for a SHARED notice or for one that stands nowhere (R84,
R85). -/
theorem Standing.Fits.giveRef (h : n.Fits queued listed) (hoff : n.offers.has p = false)
    (htried : n.tried.has p = false) (hmode : n.mode = .shared ∨ ∀ q, ¬ (queued q ∨ n.offers.has q = true)) :
    ({ n with state := .waiting } : Standing).Fits (fun q => p = q ∨ queued q) False where
  refs q hq := ⟨rfl, hq.elim (fun hpq => hpq ▸ ⟨hoff, htried⟩) fun hq => (h.refs q hq).2⟩
  directed hm := by
    have hbare := hmode.resolve_left (by rw [hm]; decide)
    have only (q : Port) (hq : (p = q ∨ queued q) ∨ n.offers.has q = true) : p = q := by
      rcases hq with (hq | hq) | hq
      · exact hq
      · exact absurd (.inl hq) (hbare q)
      · exact absurd (.inr hq) (hbare q)
    exact fun q r hq hr => (only q hq).symm.trans (only r hr)
  offered q hq := ⟨rfl, (h.offered q hq).2⟩
  claimed := nofun
  listed := iff_of_false id nofun
  untried := nofun

/-- A notice that stands nowhere strands (R69). -/
theorem Standing.Fits.strand (h : n.Fits queued listed) (hbare : ∀ q, ¬ (queued q ∨ n.offers.has q = true)) :
    ({ n with state := .stranded, tried := PortSet.empty } : Standing).Fits queued True where
  refs q hq := absurd (.inl hq) (hbare q)
  directed := h.directed
  offered q hq := absurd (.inr hq) (hbare q)
  claimed := nofun
  listed := iff_of_true trivial rfl
  untried _ := rfl

/-- p's offer ends, and p joins the tried set (R119). -/
theorem Standing.Fits.dropOffer (h : n.Fits queued listed) (hp : n.offers.has p = true) :
    ({ n with offers := n.offers.erase p, tried := n.tried.insert p } : Standing).Fits queued listed := by
  have hw := (h.offered p hp).1
  have less {q : Port} (hq : (n.offers.erase p).has q = true) : p ≠ q ∧ n.offers.has q = true := by simpa using hq
  refine ⟨fun q hq => ?_, fun hm q r hq hr => h.directed hm q r (hq.imp_right fun hq => (less hq).2)
    (hr.imp_right fun hr => (less hr).2), fun q hq => ⟨hw, ?_⟩, fun q hq => ?_, h.listed, fun hs => ?_⟩
  · obtain ⟨-, ho, ht⟩ := h.refs q hq
    have hne : p ≠ q := by
      rintro rfl
      rw [ho] at hp
      cases hp
    exact ⟨hw, by simp [ho], by simp [ht, hne]⟩
  · obtain ⟨hne, ho⟩ := less hq
    simp [(h.offered q ho).2, hne]
  · rw [hq] at hw
    cases hw
  · rw [hs] at hw
    cases hw

/-- p's claim ends, and p joins the tried set (R110, R124). -/
theorem Standing.Fits.revokeClaim (h : n.Fits queued listed) (hp : n.state = .claimed p) :
    ({ n with state := .waiting, tried := n.tried.insert p } : Standing).Fits queued listed := by
  have hbare := h.bare (by rw [hp]; nofun)
  refine ⟨fun q hq => absurd (.inl hq) (hbare q), h.directed, fun q hq => absurd (.inr hq) (hbare q), nofun,
    iff_of_false (fun hs => ?_) nofun, nofun⟩
  rw [h.listed.mp hs] at hp
  cases hp

/-- A WAITING notice takes a port into its tried set where it does not stand (R81, R91). -/
theorem Standing.Fits.addTried (h : n.Fits queued listed) (hw : n.state = .waiting) (hq : ¬ queued p)
    (ho : n.offers.has p = false) : ({ n with tried := n.tried.insert p } : Standing).Fits queued listed := by
  refine ⟨fun q hi => ?_, h.directed, fun q hi => ⟨hw, ?_⟩, fun q hs => ?_, h.listed, fun hs => ?_⟩
  · obtain ⟨-, h2, h3⟩ := h.refs q hi
    have hne : p ≠ q := by
      rintro rfl
      exact hq hi
    exact ⟨hw, h2, by simp [h3, hne]⟩
  · have hne : p ≠ q := by
      rintro rfl
      rw [show n.offers.has p = true from hi] at ho
      cases ho
    simp [(h.offered q hi).2, hne]
  · rw [show n.state = .claimed q from hs] at hw
    cases hw
  · rw [show n.state = .stranded from hs] at hw
    cases hw

/-- The reference at p becomes an offer to p (R96). -/
theorem Standing.Fits.takeHead (h : n.Fits queued listed) (hp : queued p) :
    ({ n with offers := n.offers.insert p } : Standing).Fits (fun q => queued q ∧ q ≠ p) listed := by
  obtain ⟨hw, ho, ht⟩ := h.refs p hp
  have hplace (q : Port) (hq : (queued q ∧ q ≠ p) ∨ (n.offers.insert p).has q = true) :
      queued q ∨ n.offers.has q = true := by
    rw [PortSet.has_insert, Bool.or_eq_true, decide_eq_true_eq] at hq
    rcases hq with hq | rfl | hq
    · exact .inl hq.1
    · exact .inl hp
    · exact .inr hq
  refine ⟨fun q hq => ?_, fun hm q r hq hr => h.directed hm q r (hplace q hq) (hplace r hr), fun q hq => ⟨hw, ?_⟩,
    h.claimed, h.listed, h.untried⟩
  · obtain ⟨-, h2, h3⟩ := h.refs q hq.1
    exact ⟨hw, by simp [h2, Ne.symm hq.2], h3⟩
  · rw [PortSet.has_insert, Bool.or_eq_true, decide_eq_true_eq] at hq
    rcases hq with rfl | hq
    · exact ht
    · exact (h.offered q hq).2

/-- p claims what it was offered, and every other place goes (R103). -/
theorem Standing.Fits.makeClaim (h : n.Fits queued listed) (hp : n.offers.has p = true) :
    ({ n with state := .claimed p, offers := PortSet.empty } : Standing).Fits (fun _ => False) listed := by
  obtain ⟨hw, ht⟩ := h.offered p hp
  refine ⟨fun _ => False.elim, fun _ q _ hq => ?_, fun q hq => ?_, fun q hq => ?_, iff_of_false (fun hs => ?_) nofun,
    nofun⟩
  · simp at hq
  · simp at hq
  · cases hq
    exact ht
  · rw [h.listed.mp hs] at hw
    cases hw

/-- A notice opens WAITING, and stands nowhere yet (R13). -/
theorem Standing.fits_of_new (hw : n.state = .waiting) (ho : n.offers = PortSet.empty) (hq : ∀ p, ¬ queued p)
    (hl : ¬ listed) : n.Fits queued listed := by
  refine ⟨fun q hi => absurd hi (hq q), fun _ q _ hi => ?_, fun q hi => ?_, fun q hc => ?_,
    iff_of_false hl (by rw [hw]; nofun), fun hs => ?_⟩
  · simp [ho, hq] at hi
  · simp [ho] at hi
  · rw [hw] at hc
    cases hc
  · rw [hw] at hs
    cases hs

end

theorem placeView_of_board {s t : State} (h : t.board = s.board) : t.placeView = s.placeView :=
  congrArg (fun (b : Board) i => (⟨b.standing i, fun p => i ∈ b.delivery.queues.get p, i ∈ b.stranded⟩ : PlaceView)) h

/-- An event that concerns one source leaves the places of every other. -/
theorem SourceStep.placeView {s t : State} {i j : Src} (h : SourceStep s t i) (hj : j ≠ i) :
    t.placeView j = s.placeView j := by
  unfold State.placeView
  rw [h.notices j hj, funext fun p => propext (h.mem_queue hj p), propext (h.stranded j hj)]

/-- A notice that stands nowhere, seen at its record. -/
theorem bare_of_not_hasPlace {s : State} {i : Src} {n : Notice} (h : s.hasPlace i = false) (hn : s.notice i = some n)
    (p : Port) : ¬ (i ∈ s.queue p ∨ n.standing.offers.has p = true) := by
  have hno : ¬ ∃ p, s.placedAt i p = true := by
    rw [← hasPlace_iff_placedAt, h]
    decide
  exact fun hp => hno ⟨p, (placedAt_iff hn p).mpr hp⟩

theorem based_of_hasPlace {s : State} {i : Src} (h : s.hasPlace i = true) : (s.placeView i).Based := by
  intro m hm _
  obtain ⟨n, hn, rfl⟩ := Option.map_eq_some_iff.mp hm
  obtain ⟨p, hp⟩ := (hasPlace_iff_placedAt s i).mp h
  exact ⟨p, (placedAt_iff hn p).mp hp⟩

/-! ### The places of all notices -/

/-- The clauses of `PlacesOk` that look at the notices and the queues, but that a WAITING notice of a source of the list
may stand nowhere. -/
structure InPlaces (loose : List Src) (s : State) : Prop where
  sound : ∀ i, (s.placeView i).Sound
  based : ∀ i, i ∉ loose → (s.placeView i).Based
  strandedOnce : s.stranded.Nodup
  queueOnce : ∀ p, (s.queue p).Nodup
  backlog : ∀ p, (s.queue p).length ≤ s.backlogLimit p

variable {loose : List Src} {s t : State} {i : Src} {n : Notice} {p : Port}

theorem InPlaces.congr (h : InPlaces loose s) (hb : t.board = s.board) : InPlaces loose t := by
  have hview := placeView_of_board hb
  have hqueue := board_queue hb
  have hlimit : t.backlogLimit = s.backlogLimit := congrArg Board.limit hb
  have hstr : t.stranded = s.stranded := congrArg Board.stranded hb
  exact ⟨hview ▸ h.sound, hview ▸ h.based, hstr ▸ h.strandedOnce, fun q => hqueue q ▸ h.queueOnce q,
    fun q => by rw [hqueue, hlimit]; exact h.backlog q⟩

theorem InPlaces.fits (h : InPlaces loose s) (hn : s.notice i = some n) :
    n.standing.Fits (fun p => i ∈ s.queue p) (i ∈ s.stranded) :=
  (h.sound i).2 _ (by simp [State.placeView, hn])

theorem InPlaces.vacant (h : InPlaces loose s) (hn : s.notice i = none) : (∀ p, i ∉ s.queue p) ∧ i ∉ s.stranded :=
  (h.sound i).1 (by simp [State.placeView, hn])

/-- A referenced notice is WAITING, and its port neither offered nor tried (R51, R75). -/
theorem InPlaces.referenced (h : InPlaces loose s) (hi : i ∈ s.queue p) :
    ∃ n, s.notice i = some n ∧ n.state = .waiting ∧ n.offers.has p = false ∧ n.tried.has p = false := by
  cases hn : s.notice i with
  | none => exact absurd hi ((h.vacant hn).1 p)
  | some n => exact ⟨n, rfl, (h.fits hn).refs p hi⟩

theorem InPlaces.mono {loose' : List Src} (h : InPlaces loose s) (hl : loose ⊆ loose') : InPlaces loose' s :=
  { h with based := fun i hi => h.based i fun hm => hi (hl hm) }

/-- The notice of i is taken off the list. -/
theorem InPlaces.tighten (h : InPlaces (i :: loose) s) (hi : (s.placeView i).Based) : InPlaces loose s :=
  ⟨h.sound, fun j hj => by
    by_cases hji : j = i
    · rw [hji]; exact hi
    · exact h.based j (by simp [hji, hj]), h.strandedOnce, h.queueOnce, h.backlog⟩

/-- An event that concerns the notice of i alone. -/
theorem InPlaces.of_own (h : InPlaces (i :: loose) s) (others : ∀ j, j ≠ i → t.placeView j = s.placeView j)
    (own : (t.placeView i).Sound) (based : i ∉ loose → (t.placeView i).Based) (strandedOnce : t.stranded.Nodup)
    (queueOnce : ∀ p, (t.queue p).Nodup) (backlog : ∀ p, (t.queue p).length ≤ t.backlogLimit p) :
    InPlaces loose t where
  sound j := by
    by_cases hj : j = i
    · rw [hj]; exact own
    · rw [others j hj]; exact h.sound j
  based j hl := by
    by_cases hj : j = i
    · subst hj; exact based hl
    · rw [others j hj]; exact h.based j (by simp [hj, hl])
  strandedOnce := strandedOnce
  queueOnce := queueOnce
  backlog := backlog

theorem placeView_sound_some (hn : s.notice i = some n)
    (h : n.standing.Fits (fun p => i ∈ s.queue p) (i ∈ s.stranded)) : (s.placeView i).Sound := by
  refine ⟨fun hr => by simp [State.placeView, hn] at hr, fun m hm => ?_⟩
  obtain rfl : n.standing = m := by simpa [State.placeView, hn] using hm
  exact h

theorem placeView_based_some (hn : s.notice i = some n) (h : n.standing.Based (fun p => i ∈ s.queue p)) :
    (s.placeView i).Based := by
  intro m hm
  obtain rfl : n.standing = m := by simpa [State.placeView, hn] using hm
  exact h

/-- A record is rewritten, and fits as it stands now. -/
theorem InPlaces.modNotice (h : InPlaces loose s) (hn : s.notice i = some n) {f : Notice → Notice}
    (hf : (f n).standing.Fits (fun p => i ∈ s.queue p) (i ∈ s.stranded)) : InPlaces (i :: loose) (s.modNotice i f) := by
  have hstr := (modNotice_rest s i f).2.2.2
  have hqueue := modNotice_queue s i f
  have hlimit : (s.modNotice i f).backlogLimit = s.backlogLimit := by
    funext q
    simp only [State.backlogLimit, State.portCfg, modNotice_config]
  have hnot := modNotice_some hn f
  refine (h.mono (List.subset_cons_of_subset i (List.subset_cons_self i loose))).of_own (fun j hj => ?_) ?_
    (fun hl => absurd List.mem_cons_self hl) (hstr ▸ h.strandedOnce) (fun q => hqueue q ▸ h.queueOnce q) fun q => ?_
  · unfold State.placeView
    rw [modNotice_notice, if_neg (Ne.symm hj), hstr, funext fun q => congrArg (j ∈ ·) (hqueue q)]
  · refine placeView_sound_some hnot ?_
    rw [hstr, show (fun p => i ∈ (s.modNotice i f).queue p) = fun p => i ∈ s.queue p from
      funext fun q => congrArg (i ∈ ·) (hqueue q)]
    exact hf
  · rw [hqueue, hlimit]
    exact h.backlog q

/-- References leave a queue: the notices that lose one may stand nowhere. -/
theorem InPlaces.setQueue {loose' l : List Src} (h : InPlaces loose s) (hl : l.Sublist (s.queue p))
    (hsub : loose ⊆ loose') (hlost : ∀ i ∈ s.queue p, i ∈ l ∨ i ∈ loose') : InPlaces loose' (s.setQueue p l) := by
  have hq (q : Port) : ((s.setQueue p l).queue q).Sublist (s.queue q) := by
    rw [State.queue_setQueue]
    split
    · subst_vars; exact hl
    · exact List.Sublist.refl _
  refine ⟨fun i => ⟨fun hr => ?_, fun n hn => ?_⟩, fun i hi n hn hw => ?_, h.strandedOnce,
    fun q => (h.queueOnce q).sublist (hq q), fun q => (hq q).length_le.trans (h.backlog q)⟩
  · obtain ⟨h1, h2⟩ := (h.sound i).1 hr
    exact ⟨fun q hm => h1 q ((hq q).subset hm), h2⟩
  · exact ((h.sound i).2 n hn).mono fun q hm => (hq q).subset hm
  · obtain ⟨q, hplace⟩ := h.based i (fun hm => hi (hsub hm)) n hn hw
    refine ⟨q, hplace.imp_left fun hm => ?_⟩
    show i ∈ (s.setQueue p l).queue q
    rw [State.queue_setQueue]
    split
    · subst_vars
      exact (hlost i hm).resolve_right hi
    · exact hm

/-! ### Walks -/

/-- A reference at a port that is neither offered nor tried, to a SHARED notice or to one that stands nowhere (R84,
R85). -/
theorem InPlaces.giveRef (h : InPlaces (i :: loose) s) (hn : s.notice i = some n) (hi : i ∉ s.queue p)
    (hoff : n.offers.has p = false) (htried : n.tried.has p = false) (hlen : (s.queue p).length < s.backlogLimit p)
    (hmode : n.mode = .shared ∨ s.hasPlace i = false) : InPlaces loose (s.giveRef i p) := by
  have hold := h.fits hn
  have hqueue := giveRef_queue s i p
  have hmem (q : Port) : i ∈ (s.giveRef i p).queue q ↔ p = q ∨ i ∈ s.queue q := by
    rw [hqueue]
    split
    · subst_vars; simp
    · simp [*]
  have hnot : (s.giveRef i p).notice i = some { n with state := .waiting } := giveRef_notice hn p
  have hstr : (s.giveRef i p).stranded = s.stranded.filter (fun j => j != i) := by
    show ((s.insertRef p i).modNotice i _).stranded.filter _ = _
    rw [(modNotice_rest _ i _).2.2.2]
    rfl
  have hlimit : (s.giveRef i p).backlogLimit = s.backlogLimit := by
    obtain ⟨-, -, -, -, -, hc, -⟩ := offNotices_fields (giveRef_offNotices s i p)
    funext q
    simp only [State.backlogLimit, State.portCfg, hc]
  refine h.of_own (fun j hj => (giveRef_walkStep hi).sourceStep.placeView hj) (placeView_sound_some hnot ?_)
    (fun _ => placeView_based_some hnot fun _ => ⟨p, .inl ((hmem p).mpr (.inl rfl))⟩)
    (hstr ▸ h.strandedOnce.filter _) (fun q => ?_) fun q => ?_
  · rw [funext fun q => propext (hmem q), hstr, eq_false (p := i ∈ List.filter _ _) (by simp)]
    exact hold.giveRef hoff htried (hmode.imp_right fun hbare => bare_of_not_hasPlace hbare hn)
  · rw [hqueue]
    split
    · rw [(insertByKey_perm _ _ _).nodup_iff, List.nodup_cons]
      exact ⟨hi, h.queueOnce p⟩
    · exact h.queueOnce q
  · rw [hqueue, hlimit]
    split
    · subst_vars
      rw [length_insertByKey]
      exact hlen
    · exact h.backlog q

/-- A notice that stands nowhere strands (R69). -/
theorem InPlaces.strand (h : InPlaces (i :: loose) s) (hn : s.notice i = some n) (hst : n.state ≠ .stranded)
    (hbare : s.hasPlace i = false) : InPlaces loose (s.strand i) := by
  have hold := h.fits hn
  have hnot : (s.strand i).notice i = some { n with state := .stranded, tried := PortSet.empty } :=
    modNotice_some hn _
  have hstr : (s.strand i).stranded = insertByKey s.ageKey i s.stranded := rfl
  have hqueue (q : Port) : (s.strand i).queue q = s.queue q := modNotice_queue s i _ q
  have hlimit : (s.strand i).backlogLimit = s.backlogLimit := by
    obtain ⟨-, -, -, -, -, hc, -⟩ := offNotices_fields (strand_offNotices s i)
    funext q
    simp only [State.backlogLimit, State.portCfg, hc]
  refine h.of_own (fun j hj => (strand_walkStep s i).sourceStep.placeView hj) (placeView_sound_some hnot ?_)
    (fun _ => placeView_based_some hnot fun hw => by cases hw) ?_ (fun q => hqueue q ▸ h.queueOnce q)
    fun q => by rw [hqueue, hlimit]; exact h.backlog q
  · rw [funext fun q => congrArg (i ∈ ·) (hqueue q), hstr, eq_true (p := i ∈ insertByKey _ _ _) (by simp)]
    exact hold.strand (bare_of_not_hasPlace hbare hn)
  · rw [hstr, (insertByKey_perm _ _ _).nodup_iff, List.nodup_cons]
    exact ⟨fun hm => hst (hold.listed.mp hm), h.strandedOnce⟩

theorem hasPlace_of_mem (h : i ∈ s.queue p) : s.hasPlace i = true := (hasPlace_iff s i).mpr (.inl ⟨p, h⟩)

/-- The references of a walk: none, or the notice stands somewhere. -/
theorem InPlaces.placeRefs (h : InPlaces (i :: loose) s) (hn : s.notice i = some n) (hbare : s.hasPlace i = false) :
    s.placeRefs i n = s ∨ (InPlaces loose (s.placeRefs i n) ∧ (s.placeRefs i n).hasPlace i = true) := by
  have given {u : State} {q : Port} {st : NoticeState} (hu : InPlaces (i :: loose) u)
      (hm : u.notice i = some { n with state := st }) (he : u.eligible i n q = true)
      (hmode : n.mode = .shared ∨ u.hasPlace i = false) :
      InPlaces loose (u.giveRef i q) ∧ (u.giveRef i q).hasPlace i = true := by
    obtain ⟨htried, -, -, hi, hoff, hlen⟩ := (eligible_iff u i n q).mp he
    refine ⟨hu.giveRef hm hi hoff htried hlen hmode, hasPlace_of_mem (p := q) ?_⟩
    rw [giveRef_queue, if_pos rfl]
    simp
  unfold State.placeRefs
  cases hm : n.mode with
  | directed =>
    dsimp only
    cases hf : (s.cfg i).route.ports.find? (s.eligible i n) with
    | none => exact .inl rfl
    | some q => exact .inr (given (st := n.state) h hn (List.find?_some hf) (.inr hbare))
  | shared =>
    dsimp only
    have fold (l : List Port) : ∀ (u : State) (st : NoticeState), InPlaces (i :: loose) u →
        u.notice i = some { n with state := st } →
        l.foldl (fun t p => if t.eligible i n p then t.giveRef i p else t) u = u ∨
          (InPlaces loose (l.foldl (fun t p => if t.eligible i n p then t.giveRef i p else t) u) ∧
            (l.foldl (fun t p => if t.eligible i n p then t.giveRef i p else t) u).hasPlace i = true) := by
      induction l with
      | nil => exact fun _ _ _ _ => .inl rfl
      | cons q l ih =>
        intro u st hu hm'
        rw [List.foldl_cons]
        split
        · rename_i he
          obtain ⟨h1, h2⟩ := given hu hm' he (.inl hm)
          rcases ih _ .waiting (h1.mono (List.subset_cons_self i loose)) (giveRef_notice hm' q) with hsame | hplaced
          · rw [hsame]
            exact .inr ⟨h1, h2⟩
          · exact .inr hplaced
        · exact ih u st hu hm'
    exact fold _ s n.state h hn

/-- A walk of a notice that stands nowhere (R83 to R87). -/
theorem InPlaces.walk (h : InPlaces (i :: loose) s) (hbare : s.hasPlace i = false) : InPlaces loose (s.walk i) := by
  unfold State.walk
  split
  · rename_i hn
    exact h.tighten fun m hm => by simp [State.placeView, hn] at hm
  · rename_i n hn
    dsimp only
    rcases h.placeRefs hn hbare with hsame | ⟨hplaced, hhas⟩
    · rw [hsame, hbare, Bool.false_or]
      split
      · rename_i hst
        refine h.tighten (placeView_based_some hn fun hw => ?_)
        rw [beq_iff_eq] at hst
        rw [show n.state = .waiting from hw] at hst
        cases hst
      · rename_i hst
        exact h.strand hn (by simpa using hst) hbare
    · rw [hhas, Bool.true_or, if_pos rfl]
      exact hplaced

theorem InPlaces.walkIfBare (h : InPlaces (i :: loose) s) : InPlaces loose (s.walkIfBare i) := by
  unfold State.walkIfBare
  split
  · rename_i hhas
    exact h.tighten (based_of_hasPlace hhas)
  · rename_i hbare
    exact h.walk (by simpa using hbare)

end Sys2Proof.Machine

/-! SUPPORT. The pass (R88, R90, log 13), and what each event makes of the places of notices. -/

namespace Sys2Proof.Machine

/-! ### The pass -/

/-- The clauses of `PlacesOk` about the pass: its list holds members of the stranded list, each once, and a trigger is
remembered only while it runs. -/
structure PassOk (s : State) : Prop where
  once : s.delivery.passList.Nodup
  listed : ∀ i ∈ s.delivery.passList, i ∈ s.stranded
  ends : s.delivery.passPending = true → s.delivery.passList ≠ []

variable {loose : List Src} {s t : State} {i : Src} {n : Notice} {p : Port}

theorem PassOk.of_eq (h : PassOk s) (hl : t.delivery.passList = s.delivery.passList)
    (hp : t.delivery.passPending = s.delivery.passPending) (hs : ∀ i ∈ s.delivery.passList, i ∈ t.stranded) :
    PassOk t :=
  ⟨hl ▸ h.once, hl ▸ hs, by rw [hl, hp]; exact h.ends⟩

theorem PassOk.triggerPass (h : PassOk s) (hs : s.stranded.Nodup) : PassOk s.triggerPass := by
  unfold State.triggerPass
  split
  · rename_i hl
    exact ⟨hs, fun _ hi => hi, fun hp => absurd hl (h.ends hp)⟩
  · rename_i hl
    exact ⟨h.once, h.listed, fun _ => hl⟩

/-- A pass that has ended, whether or not a trigger is remembered (R90). -/
theorem PassOk.endPass (hl : s.delivery.passList.Nodup) (hm : ∀ i ∈ s.delivery.passList, i ∈ s.stranded)
    (hs : s.stranded.Nodup) : PassOk s.endPass := by
  unfold State.endPass
  split
  · rename_i he
    split
    · exact ⟨hs, fun _ hi => hi, nofun⟩
    · rename_i hp
      exact ⟨hl, hm, fun h => absurd h hp⟩
  · rename_i j l he
    exact ⟨hl, hm, fun _ => by rw [he]; simp⟩

/-- A notice that has left the stranded list leaves the pass (log 13). -/
theorem PassOk.prunePass (hl : s.delivery.passList.Nodup) (hm : ∀ j ∈ s.delivery.passList, j ≠ i → j ∈ s.stranded)
    (he : s.delivery.passPending = true → s.delivery.passList ≠ []) (hs : s.stranded.Nodup) :
    PassOk (s.prunePass i) := by
  unfold State.prunePass
  split
  · refine PassOk.endPass (hl.filter _) (fun j hj => ?_) hs
    obtain ⟨hj, hne⟩ := List.mem_filter.mp hj
    exact hm j hj (by simpa using hne)
  · rename_i hi
    refine ⟨hl, fun j hj => hm j hj ?_, he⟩
    rintro rfl
    exact hi (List.contains_iff_mem.mpr hj)

/-- References that leave change the pass by a trigger at most (R88). -/
theorem PassOk.removeRefs (h : PassOk s) (hs : s.stranded.Nodup) (i : Src) : PassOk (s.removeRefs i) := by
  refine (NoticeInvariant.foldl (P := fun t => PassOk t ∧ t.stranded.Nodup) (fun t p ht => ⟨?_, ?_⟩) _ ⟨h, hs⟩).1
  · have hset : PassOk (t.setQueue p ((t.queue p).filter (fun j => j != i))) := ht.1.of_eq rfl rfl ht.1.listed
    unfold State.removeRef
    dsimp only
    split
    · split
      · exact hset.triggerPass ht.2
      · exact hset
    · exact ht.1
  · obtain ⟨-, -, hn, -⟩ := offDelivery_fields (removeRef_offDelivery t i p)
    rw [show (t.removeRef i p).stranded = t.stranded by simp only [State.stranded, hn]]
    exact ht.2

theorem giveRef_pass (s : State) (i : Src) (p : Port) :
    (s.giveRef i p).delivery.passList = s.delivery.passList ∧
      (s.giveRef i p).delivery.passPending = s.delivery.passPending := by
  have : (s.giveRef i p).delivery = (s.insertRef p i).delivery := (modNotice_rest (s.insertRef p i) i _).2.1
  rw [this]
  exact ⟨rfl, rfl⟩

/-- A walk leaves the pass. -/
theorem walk_pass (s : State) (i : Src) : (s.walk i).delivery.passList = s.delivery.passList ∧
    (s.walk i).delivery.passPending = s.delivery.passPending := by
  have strand (u : State) : (u.strand i).delivery = u.delivery := (modNotice_rest u i _).2.1
  have place (n : Notice) : (s.placeRefs i n).delivery.passList = s.delivery.passList ∧
      (s.placeRefs i n).delivery.passPending = s.delivery.passPending := by
    unfold State.placeRefs
    split
    · split
      · exact giveRef_pass s i _
      · exact ⟨rfl, rfl⟩
    · generalize (s.cfg i).route.ports = l
      induction l generalizing s with
      | nil => exact ⟨rfl, rfl⟩
      | cons q l ih =>
        rw [List.foldl_cons]
        split
        · obtain ⟨h1, h2⟩ := ih (s.giveRef i q)
          obtain ⟨h3, h4⟩ := giveRef_pass s i q
          exact ⟨h1.trans h3, h2.trans h4⟩
        · exact ih s
  unfold State.walk
  split
  · exact ⟨rfl, rfl⟩
  · dsimp only
    split
    · exact place _
    · rw [strand]
      exact place _

theorem walkIfBare_pass (s : State) (i : Src) : (s.walkIfBare i).delivery.passList = s.delivery.passList ∧
    (s.walkIfBare i).delivery.passPending = s.delivery.passPending := by
  unfold State.walkIfBare
  split
  · exact ⟨rfl, rfl⟩
  · exact walk_pass s i

/-! ### Places and pass together -/

/-- What `PlacesOk` says of the board, but that a WAITING notice of a source of the list may stand nowhere. -/
structure Placed (loose : List Src) (s : State) : Prop where
  places : InPlaces loose s
  pass : PassOk s

theorem Placed.congr (h : Placed loose s) (hb : t.board = s.board) : Placed loose t :=
  have hd : t.delivery = s.delivery := congrArg Board.delivery hb
  have hs : t.stranded = s.stranded := congrArg Board.stranded hb
  ⟨h.places.congr hb, h.pass.of_eq (by rw [hd]) (by rw [hd]) (hs ▸ h.pass.listed)⟩

theorem Placed.mono {loose' : List Src} (h : Placed loose s) (hl : loose ⊆ loose') : Placed loose' s :=
  ⟨h.places.mono hl, h.pass⟩

/-- A notice that is not STRANDED is not on the pass list. -/
theorem Placed.not_passing (h : Placed loose s) (hi : ∀ n, s.notice i = some n → n.state ≠ .stranded) :
    i ∉ s.delivery.passList := fun hm => by
  have hs := h.pass.listed i hm
  cases hn : s.notice i with
  | none => exact (h.places.vacant hn).2 hs
  | some n => exact hi n hn ((h.places.fits hn).listed.mp hs)

theorem Placed.walkIfBare (h : Placed (i :: loose) s) (hi : ∀ n, s.notice i = some n → n.state ≠ .stranded) :
    Placed loose (s.walkIfBare i) := by
  obtain ⟨h1, h2⟩ := walkIfBare_pass s i
  refine ⟨h.places.walkIfBare, h.pass.of_eq h1 h2 fun j hj => ?_⟩
  exact ((walkIfBare_walkStep s i).stranded j fun he => h.not_passing hi (he ▸ hj)).mpr (h.pass.listed j hj)

theorem Placed.walk (h : Placed (i :: loose) s) (hbare : s.hasPlace i = false)
    (hi : ∀ n, s.notice i = some n → n.state ≠ .stranded) : Placed loose (s.walk i) := by
  have := h.walkIfBare hi
  rwa [State.walkIfBare, hbare] at this

theorem Placed.modNotice (h : Placed loose s) (hn : s.notice i = some n) {f : Notice → Notice}
    (hf : (f n).standing.Fits (fun p => i ∈ s.queue p) (i ∈ s.stranded)) : Placed (i :: loose) (s.modNotice i f) := by
  obtain ⟨-, hd, -, hs⟩ := modNotice_rest s i f
  exact ⟨h.places.modNotice hn hf, h.pass.of_eq (by rw [hd]) (by rw [hd]) (hs ▸ h.pass.listed)⟩

theorem Placed.setQueue {loose' l : List Src} (h : Placed loose s) (hl : l.Sublist (s.queue p))
    (hsub : loose ⊆ loose') (hlost : ∀ i ∈ s.queue p, i ∈ l ∨ i ∈ loose') : Placed loose' (s.setQueue p l) :=
  ⟨h.places.setQueue hl hsub hlost, h.pass.of_eq rfl rfl h.pass.listed⟩

/-- A change of the pass alone. -/
theorem InPlaces.of_offDelivery (h : InPlaces loose s) (ht : t.offDelivery = s.offDelivery)
    (hq : ∀ p, t.queue p = s.queue p) : InPlaces loose t := by
  obtain ⟨-, -, hn, -, -, -, hc⟩ := offDelivery_fields ht
  have hview : t.placeView = s.placeView := by
    funext j
    simp only [State.placeView, State.notice, hn, hq, State.stranded]
  have hstr : t.stranded = s.stranded := by simp only [State.stranded, hn]
  exact ⟨hview ▸ h.sound, hview ▸ h.based, hstr ▸ h.strandedOnce, fun q => hq q ▸ h.queueOnce q, fun q => by
    rw [hq]
    simpa only [State.backlogLimit, State.portCfg, hc] using h.backlog q⟩

theorem Placed.triggerPass (h : Placed loose s) : Placed loose s.triggerPass :=
  ⟨h.places.of_offDelivery (triggerPass_offDelivery s) (triggerPass_queue s),
    h.pass.triggerPass h.places.strandedOnce⟩

/-- A reference to a notice that may stand nowhere leaves (R77). -/
theorem Placed.removeRef (h : Placed loose s) (hi : i ∈ loose) (p : Port) : Placed loose (s.removeRef i p) := by
  unfold State.removeRef
  split
  · have hset : Placed loose (s.setQueue p ((s.queue p).filter (fun j => j != i))) := by
      refine h.setQueue List.filter_sublist (List.Subset.refl _) fun j hj => ?_
      by_cases hji : j = i
      · exact .inr (hji ▸ hi)
      · exact .inl (List.mem_filter.mpr ⟨hj, by simpa using hji⟩)
    dsimp only
    split
    · exact hset.triggerPass
    · exact hset
  · exact h

theorem Placed.removeRefs (h : Placed loose s) (hi : i ∈ loose) : Placed loose (s.removeRefs i) :=
  NoticeInvariant.foldl (fun _ p ht => ht.removeRef hi p) _ h

/-! ### A port lets go of a notice -/

theorem Placed.dropOffer (h : Placed loose s) (hn : s.notice i = some n) (hp : n.offers.has p = true) :
    Placed (i :: loose) (s.dropOffer p i) := h.modNotice hn ((h.places.fits hn).dropOffer hp)

theorem Placed.revokeClaim (h : Placed loose s) (hn : s.notice i = some n) (hp : n.state = .claimed p) :
    Placed (i :: loose) (s.revokeClaim p i) := h.modNotice hn ((h.places.fits hn).revokeClaim hp)

theorem Placed.addTried (h : Placed loose s) (hn : s.notice i = some n) (hw : n.state = .waiting)
    (hq : i ∉ s.queue p) (ho : n.offers.has p = false) : Placed (i :: loose) (s.addTried p i) :=
  h.modNotice hn ((h.places.fits hn).addTried hw hq ho)

/-- A notice that is not WAITING stands nowhere (R54, R68). -/
theorem InPlaces.bare (h : InPlaces loose s) (hn : s.notice i = some n) (hw : n.state ≠ .waiting) :
    s.hasPlace i = false := by
  rw [← Bool.not_eq_true, hasPlace_iff_placedAt]
  rintro ⟨q, hq⟩
  exact (h.fits hn).bare hw q ((placedAt_iff hn q).mp hq)

/-- What was looked up on one board is found on the same board elsewhere. -/
theorem state_of_board (hb : t.board = s.board) (hs : ∀ n, s.notice i = some n → n.state ≠ .stranded) {m : Notice}
    (hm : t.notice i = some m) : m.state ≠ .stranded := by
  have := board_standing hb i
  rw [hm] at this
  obtain ⟨n, hn, he⟩ := Option.map_eq_some_iff.mp this.symm
  rw [← show n.state = m.state from congrArg Standing.state he]
  exact hs n hn

end Sys2Proof.Machine

/-! Every step keeps the notices in their places (O58). -/

namespace Sys2Proof.Machine

variable {loose : List Src} {s t : State} {i : Src} {n : Notice} {p : Port}

/-! ### Openings, and ports that let go of notices -/

theorem Placed.openNotice (h : Placed [] s) (hn : s.notice i = none) (conds : CodeSet) :
    Placed [] (s.openNotice i conds) := by
  obtain ⟨hq, hl⟩ := h.places.vacant hn
  have hnew := recordOpening_notice s i conds
  have hrec : Placed [i] (s.recordOpening i conds) := by
    refine ⟨(h.places.mono (List.nil_subset _)).of_own
      (fun j hj => (recordOpening_sourceStep s i conds).placeView hj) (placeView_sound_some hnew ?_)
      (fun hi => absurd List.mem_cons_self hi) h.places.strandedOnce h.places.queueOnce h.places.backlog,
      h.pass.of_eq rfl rfl h.pass.listed⟩
    exact Standing.fits_of_new rfl rfl hq hl
  rw [openNotice_eq]
  refine hrec.walk ?_ fun m hm => ?_
  · rw [← Bool.not_eq_true, hasPlace_iff]
    rintro (⟨p, hp⟩ | ⟨m, p, hm, hp⟩)
    · exact hq p hp
    · rw [hnew] at hm
      cases hm
      rw [show (s.newNotice i conds).offers.has p = false from PortSet.has_empty p] at hp
      cases hp
  · rw [hnew] at hm
    cases hm
    nofun

/-- The state of a notice that has been rewritten, looked up on an equal board. -/
theorem not_stranded_of_modNotice {f : Notice → Notice} (hn : s.notice i = some n) (hf : (f n).state ≠ .stranded)
    (hb : t.board = (s.modNotice i f).board) : ∀ m, t.notice i = some m → m.state ≠ .stranded := fun _ =>
  state_of_board hb fun m hm => by
    rw [modNotice_some hn] at hm
    cases hm
    exact hf

theorem hasPlace_of_board (hb : t.board = s.board) : t.hasPlace i = s.hasPlace i := by
  have key (u : State) : u.hasPlace i = (Port.all.any (fun p => (u.queue p).contains i) ||
      ((u.notice i).map Notice.standing).any (fun n => !n.offers.isEmpty)) := by
    unfold State.hasPlace
    cases u.notice i <;> rfl
  rw [key, key, board_standing hb, funext (board_queue hb)]

theorem Placed.offerDropped (h : Placed loose s) (hn : s.notice i = some n) (hp : n.offers.has p = true)
    (hb : t.board = (s.dropOffer p i).board) : Placed loose (t.walkIfBare i) :=
  ((h.dropOffer hn hp).congr hb).walkIfBare <| not_stranded_of_modNotice hn
    (by rw [show n.state = .waiting from ((h.places.fits hn).offered p hp).1]; nofun) hb

theorem Placed.claimRevoked (h : Placed loose s) (hn : s.notice i = some n) (hp : n.state = .claimed p)
    (hb : t.board = (s.revokeClaim p i).board) : Placed loose (t.walk i) ∧ Placed loose (t.walkIfBare i) := by
  have hst := not_stranded_of_modNotice hn (by nofun) hb
  have hold := (h.revokeClaim hn hp).congr hb
  have hbare : t.hasPlace i = false := by
    rw [hasPlace_of_board hb, ← h.places.bare hn (by rw [hp]; nofun)]
    unfold State.hasPlace State.revokeClaim
    rw [modNotice_some hn, hn]
    simp only [modNotice_queue]
  exact ⟨hold.walk hbare hst, hold.walkIfBare hst⟩

/-- A list of notices is handled one by one, each as it stood at first. -/
theorem Placed.foldl_rounds {op : State → Src → State} {Q : Notice → Prop}
    (hop : ∀ t i n, Placed [] t → t.notice i = some n → Q n → Placed [] (op t i))
    (others : ∀ t i j, j ≠ i → (op t i).notice j = t.notice j) (l : List Src) (hl : l.Nodup) :
    ∀ s : State, Placed [] s → (∀ i ∈ l, ∃ n, s.notice i = some n ∧ Q n) →
      Placed [] (l.foldl op s) ∧ ∀ j, j ∉ l → (l.foldl op s).notice j = s.notice j := by
  induction l with
  | nil => exact fun s h _ => ⟨h, fun _ _ => rfl⟩
  | cons i l ih =>
    intro s h hQ
    obtain ⟨hi, hl⟩ := List.nodup_cons.mp hl
    obtain ⟨n, hn, hq⟩ := hQ i List.mem_cons_self
    have hrest (j : Src) (hj : j ∈ l) : ∃ n, (op s i).notice j = some n ∧ Q n := by
      rw [others s i j (fun he => hi (he ▸ hj))]
      exact hQ j (List.mem_cons_of_mem i hj)
    obtain ⟨h1, h2⟩ := ih hl (op s i) (hop s i n h hn hq) hrest
    refine ⟨h1, fun j hj => ?_⟩
    obtain ⟨hji, hj⟩ := List.ne_and_not_mem_of_not_mem_cons hj
    rw [List.foldl_cons, h2 j hj, others s i j hji]

theorem mem_noticesWith {test : Notice → Bool} :
    i ∈ s.noticesWith test ↔ ∃ n, s.notice i = some n ∧ test n = true := by
  unfold State.noticesWith
  rw [List.mem_filter]
  cases s.notice i <;> simp [mem_srcAll]

theorem noticesWith_nodup (s : State) (test : Notice → Bool) : (s.noticesWith test).Nodup :=
  (List.nodup_finRange 56).filter _

/-- A change of a notice and its walk leave every other record. -/
theorem round_notice (s : State) (i j : Src) (f : Notice → Notice) (hj : j ≠ i) :
    ((s.modNotice i f).walkIfBare i).notice j = s.notice j := by
  rw [(walkIfBare_walkStep _ i).others j hj, modNotice_notice, if_neg (Ne.symm hj)]

/-- p's offers, then its claims, are taken away (R127): a notice that p has claimed is offered to no port. -/
theorem Placed.revokeAll (h : Placed [] s) (p : Port) : Placed [] (s.revokeAll p) := by
  have hmem {test : Notice → Bool} (i : Src) : i ∈ sortByKey s.ageKey (s.noticesWith test) ↔
      ∃ n, s.notice i = some n ∧ test n = true := by
    rw [(sortByKey_perm _ _).mem_iff, mem_noticesWith]
  have hnodup (test : Notice → Bool) : (sortByKey s.ageKey (s.noticesWith test)).Nodup :=
    (sortByKey_perm _ _).nodup_iff.mpr (noticesWith_nodup s test)
  obtain ⟨hdropped, hothers⟩ := Placed.foldl_rounds (op := fun t i => (t.dropOffer p i).walkIfBare i)
    (Q := fun n => n.offers.has p = true) (fun _ _ _ ht hn hp => ht.offerDropped hn hp rfl)
    (fun t i j => round_notice t i j _) _ (hnodup _) s h fun i hi => (hmem i).mp hi
  refine (Placed.foldl_rounds (op := fun t i => (t.revokeClaim p i).walkIfBare i)
    (Q := fun n => n.state = .claimed p) (fun _ _ _ ht hn hp => (ht.claimRevoked hn hp rfl).2)
    (fun t i j => round_notice t i j _) _ (hnodup _) _ hdropped fun i hi => ?_).1
  obtain ⟨n, hn, hc⟩ := (hmem i).mp hi
  have hc : n.state = .claimed p := by simpa using hc
  refine ⟨n, (hothers i fun ho => ?_).trans hn, hc⟩
  obtain ⟨m, hm, hoff⟩ := (hmem i).mp ho
  rw [hn] at hm
  cases hm
  rw [show n.state = .waiting from ((h.places.fits hn).offered p hoff).1] at hc
  cases hc

/-! ### References that leave a queue -/

/-- A WAITING notice is walked past a port that it has tried. -/
theorem walkIfBare_queue_of_tried (h : InPlaces (i :: loose) s) (hn : s.notice i = some n) (hw : n.state = .waiting)
    (hp : n.tried.has p = true) : (s.walkIfBare i).queue p = s.queue p := by
  refine ((walkIfBare_walkStep s i).queue p).resolve_right fun ⟨_, hgained⟩ => ?_
  have hi : i ∈ (s.walkIfBare i).queue p := hgained.mem_iff.mpr List.mem_cons_self
  obtain ⟨m, hm, hmw, -, hmt⟩ := h.walkIfBare.referenced hi
  unfold State.walkIfBare at hi hm
  split at hi
  · exact absurd hi ‹i ∉ s.queue p›
  · rename_i hbare
    rw [if_neg hbare] at hm
    obtain ⟨m', hm', -, hnone, hsome⟩ := walk_walked hn hw (by simpa using hbare)
    rw [hm] at hm'
    cases hm'
    by_cases hex : ∃ q ∈ (s.cfg i).route.ports, s.takes m.cls n.tried (fun q => (s.queue q).length) q = true
    · rw [(hsome hex).2.1, hp] at hmt
      cases hmt
    · have := (hnone fun q hq => by simpa using fun ht => hex ⟨q, hq, ht⟩).1
      rw [hmw] at this
      cases this

/-- A reference that has left p's queue is handled (R81, R91). -/
theorem Placed.evicted (h : Placed (i :: loose) s) (hn : s.notice i = some n) (hw : n.state = .waiting)
    (hq : i ∉ s.queue p) (ho : n.offers.has p = false) :
    Placed loose ((s.addTried p i).walkIfBare i) ∧ ((s.addTried p i).walkIfBare i).queue p = s.queue p := by
  have hnot : (s.addTried p i).notice i = some { n with tried := n.tried.insert p } := modNotice_some hn _
  have hadd : Placed (i :: loose) (s.addTried p i) := (h.addTried hn hw hq ho).mono (by simp)
  refine ⟨hadd.walkIfBare (not_stranded_of_modNotice (t := s.addTried p i) hn (by rw [hw]; nofun) rfl), ?_⟩
  rw [walkIfBare_queue_of_tried hadd.places hnot hw (by simp)]
  exact modNotice_queue s i _ p

theorem Placed.emptyQueue (h : Placed [] s) (p : Port) : Placed [] (s.emptyQueue p) := by
  have fold (l : List Src) : ∀ t : State, Placed [] t → t.queue p = l →
      Placed [] (l.foldl (fun t i => ((t.setQueue p (t.queue p).tail).addTried p i).walkIfBare i) t) := by
    induction l with
    | nil => exact fun _ ht _ => ht
    | cons i l ih =>
      intro t ht hl
      have hset : Placed [i] (t.setQueue p (t.queue p).tail) := by
        refine ht.setQueue (List.tail_sublist _) (List.nil_subset _) fun j hj => ?_
        rw [hl] at hj ⊢
        exact (List.mem_cons.mp hj).symm.imp_right List.mem_singleton.mpr
      have hqueue : (t.setQueue p (t.queue p).tail).queue p = l := by
        rw [State.queue_setQueue, if_pos rfl, hl, List.tail_cons]
      obtain ⟨n, hn, hw, ho, -⟩ := ht.places.referenced (show i ∈ t.queue p by rw [hl]; exact List.mem_cons_self)
      have honce := ht.places.queueOnce p
      rw [hl, List.nodup_cons] at honce
      obtain ⟨hplaced, hsame⟩ := hset.evicted (p := p) hn hw (by rw [hqueue]; exact honce.1) ho
      exact ih _ hplaced (hsame.trans hqueue)
  exact fold _ s h rfl

/-- The tail of a queue that a new backlog limit cuts off (R81). -/
theorem Placed.setBacklog (h : Placed [] s) (p : Port) (limit : Byte) : Placed [] (s.setBacklog p limit) := by
  have fold (l : List Src) : l.Nodup → ∀ t : State, Placed l t →
      (∀ i ∈ l, i ∉ t.queue p ∧ ∃ n, t.notice i = some n ∧ n.state = .waiting ∧ n.offers.has p = false) →
      Placed [] (l.foldl (fun u i => (u.addTried p i).walkIfBare i) t) := by
    induction l with
    | nil => exact fun _ _ ht _ => ht
    | cons i l ih =>
      intro hl t ht hall
      obtain ⟨hil, hl⟩ := List.nodup_cons.mp hl
      obtain ⟨hq, n, hn, hw, ho⟩ := hall i List.mem_cons_self
      obtain ⟨hplaced, hsame⟩ := ht.evicted hn hw hq ho
      refine ih hl _ hplaced fun j hj => ?_
      rw [hsame, show ((t.addTried p i).walkIfBare i).notice j = t.notice j from
        round_notice t i j _ fun he => hil (he ▸ hj)]
      exact hall j (List.mem_cons_of_mem i hj)
  have honce := h.places.queueOnce p
  generalize hu : (s.setPortCfg p { s.portCfg p with backlog := limit }).setQueue p
    ((s.queue p).take limit.toNat) = u
  have hqueue (q : Port) : u.queue q = if p = q then (s.queue p).take limit.toNat else s.queue q := by
    rw [← hu, State.queue_setQueue]
    rfl
  have hlimit (q : Port) : u.backlogLimit q = if p = q then limit.toNat else s.backlogLimit q := by
    have : u.portCfg q = (s.setPortCfg p { s.portCfg p with backlog := limit }).portCfg q := by rw [← hu]; rfl
    unfold State.backlogLimit
    rw [this, State.portCfg_setPortCfg]
    split <;> rfl
  have hcut : Placed ((s.queue p).drop limit.toNat) u := by
    have hset : Placed ((s.queue p).drop limit.toNat) (s.setQueue p ((s.queue p).take limit.toNat)) :=
      h.setQueue (List.take_sublist _ _) (List.nil_subset _) fun j hj => by
        rwa [← List.mem_append, List.take_append_drop]
    have hview : u.placeView = (s.setQueue p ((s.queue p).take limit.toNat)).placeView := by rw [← hu]; rfl
    have hstr : u.stranded = s.stranded := by rw [← hu]; rfl
    have hdel : u.delivery = (s.setQueue p ((s.queue p).take limit.toNat)).delivery := by rw [← hu]; rfl
    refine ⟨⟨hview ▸ hset.places.sound, hview ▸ hset.places.based, hstr ▸ h.places.strandedOnce, fun q => ?_,
      fun q => ?_⟩, h.pass.of_eq (by rw [hdel]; rfl) (by rw [hdel]; rfl) (hstr ▸ h.pass.listed)⟩
    · rw [hqueue]
      split
      · exact honce.sublist (List.take_sublist _ _)
      · exact h.places.queueOnce q
    · rw [hqueue, hlimit]
      split
      · exact List.length_take_le _ _
      · exact h.places.backlog q
  have key : s.setBacklog p limit = ((s.queue p).drop limit.toNat).foldl
      (fun u i => (u.addTried p i).walkIfBare i) (State.latchRisen s u) := by rw [← hu]; rfl
  rw [key]
  refine fold _ (honce.sublist (List.drop_sublist _ _)) _ (hcut.congr (latchRisen_board s u)) fun i hi => ⟨?_, ?_⟩
  · show i ∉ u.queue p
    rw [hqueue, if_pos rfl]
    exact fun ht => List.disjoint_take_drop honce le_rfl ht hi
  · obtain ⟨n, hn, hw, ho, -⟩ := h.places.referenced (List.mem_of_mem_drop hi)
    exact ⟨n, by rw [← hn, ← hu]; rfl, hw, ho⟩

/-- The head of a queue becomes an offer (R96). -/
theorem Placed.headTaken (h : Placed [] s) (hi : i ∈ s.queue p) (hn : s.notice i = some n) :
    Placed [] ((s.removeRef i p).setNotice i (some (n.offerTo p))) := by
  have hr : Placed [i] (s.removeRef i p) := (h.mono (List.nil_subset [i])).removeRef List.mem_cons_self p
  obtain ⟨-, -, hnot, -⟩ := offDelivery_fields (removeRef_offDelivery s i p)
  have hmem (q : Port) : i ∈ (s.removeRef i p).queue q ↔ i ∈ s.queue q ∧ q ≠ p := by
    rw [removeRef_queue]
    split
    · subst_vars; simp
    · simp [Ne.symm ‹¬ p = q›]
  have hnew : ((s.removeRef i p).setNotice i (some (n.offerTo p))).notice i = some (n.offerTo p) := by
    rw [State.notice_setNotice, if_pos rfl]
  refine ⟨hr.places.of_own (fun j hj => (setNotice_sourceStep _ i _).placeView hj) (placeView_sound_some hnew ?_)
    (fun _ => placeView_based_some hnew fun _ => ⟨p, .inr ?_⟩) hr.places.strandedOnce hr.places.queueOnce
    hr.places.backlog, hr.pass.of_eq rfl rfl hr.pass.listed⟩
  · have hstr : ((s.removeRef i p).setNotice i (some (n.offerTo p))).stranded = s.stranded := by
      show (s.removeRef i p).stranded = _
      simp only [State.stranded, hnot]
    rw [hstr, show (fun q => i ∈ ((s.removeRef i p).setNotice i (some (n.offerTo p))).queue q) =
      fun q => i ∈ s.queue q ∧ q ≠ p from funext fun q => propext (hmem q)]
    exact (h.places.fits hn).takeHead hi
  · show (n.offers.insert p).has p = true
    simp

end Sys2Proof.Machine

/-! Every step keeps the notices in their places (O58): claims, ends, the pass and the tables. -/

namespace Sys2Proof.Machine

variable {s t : State} {i : Src} {n : Notice} {p : Port}

/-! ### Claims and ends -/

/-- Every reference of a notice has left, and its record has been rewritten or has gone. -/
theorem InPlaces.rewritten (h : InPlaces [] s) (hnot : ∀ j, j ≠ i → t.notice j = s.notice j)
    (hqueue : ∀ p, t.queue p = (s.queue p).filter (fun j => j != i)) (hstr : t.stranded.Sublist s.stranded)
    (hothers : ∀ j, j ≠ i → (j ∈ t.stranded ↔ j ∈ s.stranded)) (hlimit : t.backlogLimit = s.backlogLimit)
    (own : (t.placeView i).Sound) (based : (t.placeView i).Based) : InPlaces [] t := by
  refine (h.mono (List.nil_subset [i])).of_own (fun j hj => ?_) own (fun _ => based) (h.strandedOnce.sublist hstr)
    (fun q => hqueue q ▸ (h.queueOnce q).filter _) fun q => ?_
  · have hmem (q : Port) : j ∈ t.queue q ↔ j ∈ s.queue q := by rw [hqueue]; simp [hj]
    simp only [State.placeView, hnot j hj, hmem, hothers j hj]
  · rw [hqueue, hlimit]
    exact (List.length_filter_le _ _).trans (h.backlog q)

/-- The record that a claim makes (R103). -/
def Notice.claimedBy (n : Notice) (p : Port) : Notice :=
  { n with state := .claimed p, offers := PortSet.empty, offerTimers := PerPort.all none }

/-- A withdrawal is queued at each port that satisfies a test (R66). -/
theorem foldl_withdraw_eng (s : State) (w : Withdrawal) (c : Port → Prop) [DecidablePred c] (q : Port) :
    (Port.all.foldl (fun t r => if c r then t.withdraw r w else t) s).eng q = { s.eng q with
      withdrawals := (s.eng q).withdrawals ++ if c q then [w] else [] } := by
  have round (t : State) (r : Port) : (if c r then t.withdraw r w else t).eng q = { t.eng q with
      withdrawals := (t.eng q).withdrawals ++ if r = q ∧ c q then [w] else [] } := by
    by_cases hr : r = q
    · subst hr
      split <;> simp [*]
    · split <;> simp [*]
  simp only [Port.all, List.foldl, round]
  cases q <;> simp

/-- What a claim by p does: the record, the references, and the withdrawals to the other ports of the offer set
(R103). -/
structure ClaimMade (s t : State) (p : Port) (i : Src) (n : Notice) : Prop where
  stage : t.stage = s.stage
  sources : t.sources = s.sources
  bus : t.bus = s.bus
  config : t.config = s.config
  attention : t.attention = s.attention
  notice : ∀ j, t.notice j = if i = j then some (n.claimedBy p) else s.notice j
  order : t.notices.nextOrder = s.notices.nextOrder
  stranded : t.stranded = s.stranded
  queue : ∀ q, t.queue q = (s.queue q).filter (fun j => j != i)
  eng : ∀ q, t.eng q = { s.eng q with
    withdrawals := (s.eng q).withdrawals ++ if q ≠ p ∧ n.offers.has q = true then [⟨i, n.mark, .taken⟩] else [] }
  pass : PassOk s → s.stranded.Nodup → PassOk t

theorem makeClaim_made (s : State) (p : Port) (i : Src) (n : Notice) : ClaimMade s (s.makeClaim p i n) p i n := by
  generalize hu : Port.all.foldl (fun t q => if q ≠ p ∧ n.offers.has q then t.withdraw q ⟨i, n.mark, .taken⟩ else t)
    (s.setNotice i (some (n.claimedBy p))) = u
  have hoff : u.offEngines = (s.setNotice i (some (n.claimedBy p))).offEngines := by
    rw [← hu]
    refine foldl_keeps State.offEngines _ (fun t q => ?_) _ _
    split <;> rfl
  have heng (q : Port) := foldl_withdraw_eng (s.setNotice i (some (n.claimedBy p))) ⟨i, n.mark, .taken⟩
    (fun q => q ≠ p ∧ n.offers.has q = true) q
  simp only [hu] at heng
  obtain ⟨hust, hus, hun, hud, hub, hua, huc⟩ := offEngines_fields hoff
  obtain ⟨hrst, hrs, hrn, hrb, hre, hra, hrc⟩ := offDelivery_fields (removeRefs_offDelivery u i)
  rw [show s.makeClaim p i n = u.removeRefs i by rw [← hu]; rfl]
  exact {
    stage := hrst.trans hust
    sources := hrs.trans hus
    bus := hrb.trans hub
    config := hrc.trans huc
    attention := hra.trans hua
    notice := fun j => by
      rw [← State.notice_setNotice]
      simp only [State.notice, hrn, hun]
    order := (congrArg NoticeTable.nextOrder (hrn.trans hun)).trans rfl
    stranded := by simp only [State.stranded, hrn, hun]; rfl
    queue := fun q => by
      rw [removeRefs_queue]
      simp only [State.queue, hud]
      rfl
    eng := fun q => by simp only [State.eng, hre]; exact heng q
    pass := fun h hs => by
      have hus : u.stranded = s.stranded := by simp only [State.stranded, hun]; rfl
      exact PassOk.removeRefs (h.of_eq (by rw [hud]; rfl) (by rw [hud]; rfl) (hus ▸ h.listed)) (hus ▸ hs) i }

theorem Placed.makeClaim (h : Placed [] s) (hn : s.notice i = some n) (hp : n.offers.has p = true) :
    Placed [] (s.makeClaim p i n) := by
  have hmade := makeClaim_made s p i n
  have hown : (s.makeClaim p i n).notice i = some (n.claimedBy p) := by rw [hmade.notice, if_pos rfl]
  refine ⟨h.places.rewritten (fun j hj => by rw [hmade.notice, if_neg (Ne.symm hj)]) hmade.queue
    (hmade.stranded ▸ List.Sublist.refl _) (fun j _ => by rw [hmade.stranded]) ?_ (placeView_sound_some hown ?_)
    (placeView_based_some hown nofun), hmade.pass h.pass h.places.strandedOnce⟩
  · funext q
    simp only [State.backlogLimit, State.portCfg, hmade.config]
  · rw [hmade.stranded, show (fun q => i ∈ (s.makeClaim p i n).queue q) = fun _ => False from
      funext fun q => by simp [hmade.queue]]
    exact (h.places.fits hn).makeClaim hp

theorem Placed.erased (h : Placed [] s) (hn : s.notice i = some n) : Placed [] (s.endNotice i none) := by
  have hstep := endNotice_closed_sourceStep hn
  obtain ⟨-, -, hnot, -, hqueue, hstr⟩ := endNotice_closed hn
  have hgone : (s.endNotice i none).notice i = none := by rw [hnot, if_pos rfl]
  have hpass := h.pass.removeRefs h.places.strandedOnce i
  obtain ⟨-, -, hrn, -⟩ := offDelivery_fields (removeRefs_offDelivery s i)
  have hrs : (s.removeRefs i).stranded = s.stranded := by simp only [State.stranded, hrn]
  refine ⟨h.places.rewritten hstep.notices hqueue (hstr ▸ List.filter_sublist) hstep.stranded ?_
    ⟨fun _ => ⟨fun q => ?_, ?_⟩, fun m hm => ?_⟩ (fun m hm => ?_), ?_⟩
  · funext q
    simp only [State.backlogLimit, State.portCfg, hstep.config]
  · show i ∉ (s.endNotice i none).queue q
    simp [hqueue]
  · show i ∉ (s.endNotice i none).stranded
    simp [hstr]
  · simp [State.placeView, hgone] at hm
  · simp [State.placeView, hgone] at hm
  · rw [show s.endNotice i none = (s.eraseNotice i).prunePass i by unfold State.endNotice; rw [hn]]
    refine PassOk.prunePass hpass.once (fun j hj hne => ?_) hpass.ends ?_
    · show j ∈ s.stranded.filter (fun j => j != i)
      exact List.mem_filter.mpr ⟨hrs ▸ hpass.listed j hj, by simpa using hne⟩
    · exact h.places.strandedOnce.filter _

/-- An end with a reason is the withdrawals and then an end without one (R56, R66). -/
theorem endNotice_withdrawn (hn : s.notice i = some n) (r : Reason) : (s.withdrawAll i n r).notice i = some n ∧
    s.endNotice i (some r) = (s.withdrawAll i n r).endNotice i none := by
  obtain ⟨-, -, hnot, -⟩ := offEngines_fields (withdrawAll_offEngines s i n r)
  have hw : (s.withdrawAll i n r).notice i = some n := by
    rw [← hn]
    simp only [State.notice, hnot]
  refine ⟨hw, ?_⟩
  unfold State.endNotice
  rw [hn, hw]

theorem Placed.endNotice (h : Placed [] s) (i : Src) (r : Option Reason) : Placed [] (s.endNotice i r) := by
  cases hn : s.notice i with
  | none =>
    unfold State.endNotice
    rwa [hn]
  | some n =>
    cases r with
    | none => exact h.erased hn
    | some r =>
      obtain ⟨hw, hend⟩ := endNotice_withdrawn hn r
      rw [hend]
      exact (h.congr (withdrawAll_board s i n r)).erased hw

/-! ### The pass, the rank order and new tables -/

/-- One walk of the pass (R88, R90). -/
theorem Placed.passStep (h : Placed [] s) : Placed [] s.passStep := by
  unfold State.passStep
  split
  · exact h
  · rename_i i rest hl
    have honce := h.pass.once
    rw [hl, List.nodup_cons] at honce
    have hlisted : i ∈ s.stranded := h.pass.listed i (by rw [hl]; exact List.mem_cons_self)
    generalize hu : s.setPass rest s.delivery.passPending = u
    have hus : u.stranded = s.stranded := by rw [← hu]; rfl
    have hplaces : InPlaces [] u := by
      rw [← hu]
      exact h.places.of_offDelivery rfl fun _ => rfl
    have hbare : u.hasPlace i = false := by
      cases hn : u.notice i with
      | none => exact absurd (hus ▸ hlisted) (hplaces.vacant hn).2
      | some n =>
        have hst : n.state = .stranded := (hplaces.fits hn).listed.mp (hus ▸ hlisted)
        exact hplaces.bare hn (by rw [hst]; nofun)
    have hwalk : InPlaces [] (u.walk i) := (hplaces.mono (List.nil_subset [i])).walk hbare
    have hpass : (u.walk i).delivery.passList = rest := (walk_pass u i).1.trans (by rw [← hu]; rfl)
    dsimp only
    rw [hus, if_pos (List.contains_iff_mem.mpr hlisted)]
    refine ⟨hwalk.of_offDelivery (endPass_offDelivery _) (endPass_queue _), PassOk.endPass (hpass ▸ honce.2)
      (fun j hj => ?_) hwalk.strandedOnce⟩
    rw [hpass] at hj
    rw [(walk_walkStep u i).stranded j fun he => honce.1 (he ▸ hj), hus]
    exact h.pass.listed j (by rw [hl]; exact List.mem_cons_of_mem i hj)

/-- Queues of the same members under the same limits. -/
theorem Placed.of_perm (h : Placed [] s) (hn : t.notices = s.notices) (hq : ∀ p, (t.queue p).Perm (s.queue p))
    (hl : ∀ p, (s.queue p).length ≤ t.backlogLimit p) (hpl : t.delivery.passList = s.delivery.passList)
    (hpp : t.delivery.passPending = s.delivery.passPending) : Placed [] t := by
  have hstr : t.stranded = s.stranded := by simp only [State.stranded, hn]
  have hview : t.placeView = s.placeView := by
    funext j
    simp only [State.placeView, State.notice, hn, hstr, (hq _).mem_iff]
  exact ⟨⟨hview ▸ h.places.sound, hview ▸ h.places.based, hstr ▸ h.places.strandedOnce,
    fun q => (hq q).nodup_iff.mpr (h.places.queueOnce q), fun q => (hq q).length_eq ▸ hl q⟩,
    h.pass.of_eq hpl hpp (hstr ▸ h.pass.listed)⟩

theorem Placed.writeRank (h : Placed [] s) (order : List (Fin 8)) : Placed [] (s.writeRank order) := by
  unfold State.writeRank
  split
  · exact h
  · generalize hu : ({ s with config := { s.config with tables := { s.config.tables with order := order } } } : State)
      = u
    have hqueue (q : Port) : u.reorderQueues.queue q = sortByKey u.queueKey (s.queue q) := by
      show (PerPort.build _).get q = _
      rw [PerPort.get_build, ← hu]
      rfl
    refine h.of_perm (by rw [← hu]; rfl) (fun q => hqueue q ▸ sortByKey_perm _ _) (fun q => ?_) (by rw [← hu]; rfl)
      (by rw [← hu]; rfl)
    have hlimit : u.reorderQueues.backlogLimit q = s.backlogLimit q := by rw [← hu]; rfl
    exact hlimit ▸ h.places.backlog q

theorem fullReset_placed (s : State) : Placed [] s.fullReset where
  places := {
    sound := fun i => by
      refine ⟨fun _ => ⟨fun q hq => ?_, nofun⟩, fun n hn => ?_⟩
      · have hq : i ∈ s.fullReset.queue q := hq
        rw [queue_reset] at hq
        cases hq
      · simp [State.placeView, notice_reset] at hn
    based := fun i _ n hn => by simp [State.placeView, notice_reset] at hn
    strandedOnce := List.nodup_nil
    queueOnce := fun q => by rw [queue_reset]; exact List.nodup_nil
    backlog := fun q => by rw [queue_reset]; exact Nat.zero_le _ }
  pass := ⟨List.nodup_nil, nofun, nofun⟩

/-- Every event of the notice table and the delivery unit keeps the places. -/
theorem placed_invariant : NoticeInvariant (Placed []) where
  congr h hb := h.congr hb
  live h p i hi := by
    obtain ⟨n, hn, -⟩ := h.places.referenced hi
    rw [hn]
    rfl
  opened h hn conds := h.openNotice hn conds
  offerDropped h hn hp hb := h.offerDropped hn hp hb
  claimRevoked h hn hp hb := h.claimRevoked hn hp hb
  revoked h p := h.revokeAll p
  queueEmptied h p := h.emptyQueue p
  backlogSet h p limit := h.setBacklog p limit
  headTaken h hi hn := h.headTaken hi hn
  claimed h hn hp := h.makeClaim hn hp
  ended h i r := h.endNotice i r
  passTriggered h := h.triggerPass
  passStepped h := h.passStep
  passStopped h := ⟨h.places.of_offDelivery rfl fun _ => rfl, List.nodup_nil, nofun, nofun⟩
  ranked h order := h.writeRank order
  loaded h hq hn hd := h.of_perm hn (fun p => by simp only [State.queue, hd]; rfl)
    (fun p => by rw [hq]; exact Nat.zero_le _) (by rw [hd]) (by rw [hd])
  reset := fullReset_placed

/-! ### The places as the statement has them -/

theorem PlacesOk.placed (h : PlacesOk s) : Placed [] s where
  places := {
    sound := fun i => by
      cases hn : s.notice i with
      | none =>
        refine ⟨fun _ => ⟨fun q hq => ?_, fun hl => ?_⟩, fun m hm => by simp [State.placeView, hn] at hm⟩
        · obtain ⟨m, hm, -⟩ := h.refs q i hq
          rw [hn] at hm
          cases hm
        · obtain ⟨m, hm, -⟩ := (h.strandedList i).mp hl
          rw [hn] at hm
          cases hm
      | some n =>
        refine placeView_sound_some hn ⟨fun q hq => ?_, h.directed i n hn, fun q => h.offered i n q hn,
          fun q => h.claimed i n q hn, ?_, h.untried i n hn⟩
        · obtain ⟨m, hm, hplace⟩ := h.refs q i hq
          rw [hn] at hm
          cases hm
          exact hplace
        · rw [h.strandedList, hn]
          simp [Notice.standing]
    based := fun i _ m hm hw => by
      obtain ⟨n, hn, rfl⟩ := Option.map_eq_some_iff.mp hm
      exact based_of_hasPlace (h.waiting i n hn hw) _ hm hw
    strandedOnce := h.strandedOnce
    queueOnce := h.queueOnce
    backlog := h.backlog }
  pass := ⟨h.passList.1, h.passList.2, h.passEnds⟩

theorem Placed.placesOk (h : Placed [] s) (ho : SourcesOk s) : PlacesOk s where
  refs p i hi := h.places.referenced hi
  waiting i n hn hw := by
    obtain ⟨p, hp⟩ := h.places.based i List.not_mem_nil n.standing (by simp [State.placeView, hn]) hw
    exact (hasPlace_iff_placedAt s i).mpr ⟨p, (placedAt_iff hn p).mpr hp⟩
  directed i n hn := (h.places.fits hn).directed
  offered i n p hn := (h.places.fits hn).offered p
  claimed i n p hn := (h.places.fits hn).claimed p
  strandedList i := by
    cases hn : s.notice i with
    | none => exact iff_of_false (h.places.vacant hn).2 (by simp)
    | some n => simpa using show i ∈ s.stranded ↔ n.state = .stranded from (h.places.fits hn).listed
  untried i n hn := (h.places.fits hn).untried
  strandedOnce := h.places.strandedOnce
  passList := ⟨h.pass.once, h.pass.listed⟩
  passEnds := h.pass.ends
  queueOnce := h.places.queueOnce
  backlog := h.places.backlog
  sources := ho
  booting := queue_empty_of_booting ho (placed_invariant.live h)

/-- Settles O58: each event that changes queues, records, the stranded list or the pass keeps the places
(`placed_invariant`), and every command is made of such events (`NoticeInvariant.step`). -/
theorem stepKeepsNoticesInTheirPlaces : Obligations.StepKeepsNoticesInTheirPlaces := by
  unfold Obligations.StepKeepsNoticesInTheirPlaces
  intro s t h ht
  exact (placed_invariant.step h.placed h.sources ht).placesOk (stepKeepsRecordsWithOpenSources s t h.sources ht)

end Sys2Proof.Machine

/-! SUPPORT. The end of an event port by port, and the clear of a field source that begins in an event. -/

namespace Sys2Proof.Machine

variable {s t u v : State} {i : Src} {n : Notice} {p q : Port}

/-! ### The end of an event, port by port (R143) -/

theorem settlePort_offerCount_ne (s : State) (h : p ≠ q) : (s.settlePort p).offerCount q = s.offerCount q := by
  refine congrArg List.length (List.filter_congr fun j _ => ?_)
  rw [settlePort_notice]
  by_cases ht : s.headTaken p = some j
  · rw [if_pos ht]
    cases s.notice j <;> simp [offerTo_has, h]
  · rw [if_neg ht]

/-- A port at rest is at rest after an event that has given it no reference, has taken back no offer to it and has left
its engine alone. -/
theorem PortQuiet.after (h : PortQuiet s q) (hst : u.stage = s.stage) (he : u.eng q = s.eng q)
    (hq : s.queue q = [] → u.queue q = []) (ho : s.offerCount q ≤ u.offerCount q) : PortQuiet u q := by
  intro hidle
  rw [he] at hidle ⊢
  obtain ⟨hrate, hlists⟩ := h hidle
  refine ⟨hrate, fun hon => ?_⟩
  obtain ⟨hr, hw, hno⟩ := hlists hon
  refine ⟨hr, hw, ?_⟩
  by_contra htake
  obtain ⟨hrun, -, -, hne, w, hstate, hlt⟩ := (canTakeHead_iff u q).mp (by simpa using htake)
  rw [(canTakeHead_iff s q).mpr ⟨hst ▸ hrun, hr, hw, fun hs => hne (hq hs), w, he ▸ hstate, ho.trans_lt hlt⟩] at hno
  cases hno

/-- What another port takes leaves a port at rest. -/
theorem PortQuiet.settlePort (h : PortQuiet s q) (hpq : p ≠ q) : PortQuiet (s.settlePort p) q :=
  h.after (offLinks_fields (settlePort_offLinks s p)).2.1 (settlePort_eng_ne s hpq)
    (fun hq => by simp [settlePort_queue, hq]) (settlePort_offerCount_ne s hpq).ge

/-- The end of an event leaves the engine of a port at rest. -/
theorem settle_eng_of_quiet (h : PortQuiet s q) : s.settle.eng q = s.eng q := by
  unfold State.settle
  cases q
  · rw [settlePort_eng_ne _ (by decide), settlePort_eng_ne _ (by decide), settlePort_of_quiet h]
  · rw [settlePort_eng_ne _ (by decide), settlePort_of_quiet (h.settlePort (by decide)),
      settlePort_eng_ne _ (by decide)]
  · rw [settlePort_of_quiet ((h.settlePort (by decide)).settlePort (by decide)), settlePort_eng_ne _ (by decide),
      settlePort_eng_ne _ (by decide)]

/-- A withdrawal that has been made is announced after the event's end (R66, R143). -/
theorem settle_announces {w : Withdrawal} (h : w ∈ (s.eng p).withdrawals) : s.settle.announces p w := by
  obtain ⟨t, ht, he⟩ := settle_eng s p
  unfold State.announces
  rw [he]
  rw [← ht] at h
  obtain ⟨⟨_, _, _, hrate⟩, -, -⟩ := applyRate_keeps t p p
  have hw : w ∈ ((t.applyRate p).eng p).withdrawals := by rw [hrate]; exact h
  unfold State.settlePort
  generalize t.applyRate p = u at hw
  unfold State.chooseFrame
  dsimp only
  split
  · split
    · left
      simpa [State.beginFrame] using hw
    · split
      · rename_i a rest hq
        rw [hq] at hw
        rcases List.mem_cons.mp hw with rfl | hw
        · right
          simp [State.beginFrame]
        · left
          simpa [State.beginFrame] using hw
      · rename_i hq
        rw [hq] at hw
        cases hw
  · exact Or.inl hw

/-- A notice that is gone before the end of an event is gone after it. -/
theorem settle_gone (hn : s.notice i = none) (hq : ∀ p, i ∉ s.queue p) (hs : i ∉ s.stranded) :
    s.settle.notice i = none ∧ (∀ p, i ∉ s.settle.queue p) ∧ i ∉ s.settle.stranded := by
  have hstays := settle_noticeStays s i
  have hgone := hstays.absent hn
  refine ⟨hgone, fun p hp => ?_, ?_⟩
  · have := hstays.placed p
    simp [State.placedAt, hgone, hn, hq p, hp] at this
  · unfold State.settle
    simpa only [(settlePort_strandedList _ _).1] using hs

/-- A port with a response or a withdrawal to send takes no head (R94). -/
theorem headTaken_of_lists (h : (s.eng p).responses ≠ [] ∨ (s.eng p).withdrawals ≠ []) : s.headTaken p = none := by
  by_contra hne
  obtain ⟨j, hj⟩ := Option.ne_none_iff_exists'.mp hne
  obtain ⟨-, htake, -⟩ := headTaken_some hj
  obtain ⟨-, hr, hw, -⟩ := (canTakeHead_iff s p).mp htake
  exact h.elim (absurd hr) (absurd hw)

/-- As `SourceStep.touchesOnly`, for an event that takes back offers of ports that then have something to send. -/
theorem SourceStep.touchesOnly_sending (h : SourceStep s u i) (hs : Settled s)
    (ho : ∀ p, s.offerCount p ≤ u.offerCount p ∨ (u.eng p).responses ≠ [] ∨ (u.eng p).withdrawals ≠ []) :
    TouchesOnly s u.settle i := by
  obtain ⟨-, hst, hsrc, -, hc, -⟩ := offLinks_fields (settle_offLinks u)
  refine ⟨fun j hj => ?_, fun j hj => ?_, hc.trans h.config, hst.trans h.stage,
    h.latched.trans (settle_latchedKept u)⟩
  · rw [settle_notice_of_notTaken, h.notices j hj]
    intro p ht
    rcases ho p with hle | hlists
    · have hempty := headTaken_of_settled hs h.stage (h.tx p) (h.portState p) hle ht
      obtain ⟨rest, hq⟩ := (headTaken_some ht).2.2.1
      have hmem : j ∈ u.queue p := by rw [hq]; exact List.mem_cons_self
      rw [h.mem_queue hj, hempty] at hmem
      cases hmem
    · rw [headTaken_of_lists hlists] at ht
      cases ht
  · simp only [State.src, hsrc]
    exact h.sources j hj

/-! ### The clear of a field source (R34, R59) -/

/-- A CLOSE of a field source's notice, less what it answers. -/
theorem closeNotice_field (hi : i.line = none) (hn : s.notice i = some n) (effective : CodeSet) :
    SourceStep s (s.closeNotice i n effective) i ∧
      (s.closeNotice i n effective).bus =
        { s.bus with clearList := s.bus.clearList ++ [⟨i, CodeSet.less15 effective, 0⟩] } ∧
      (s.closeNotice i n effective).engines = s.engines ∧ (s.closeNotice i n effective).notice i = none ∧
      (s.closeNotice i n effective).src i = (s.src i).closing n.conds effective ∧
      (∀ p, (s.closeNotice i n effective).queue p = (s.queue p).filter (fun j => j != i)) ∧
      (s.closeNotice i n effective).stranded = s.stranded.filter (fun j => j != i) := by
  obtain ⟨hoff, -, hnot, -, hqueue, hstr⟩ := endNotice_closed hn
  obtain ⟨-, -, -, hbus, heng, -⟩ := offNotices_fields hoff
  have hend : s.closeNotice i n effective =
      ((s.endNotice i none).setSrc i ((s.src i).closing n.conds effective)).setBus
        { s.bus with clearList := s.bus.clearList ++ [⟨i, CodeSet.less15 effective, 0⟩] } := by
    rw [closeNotice_eq, ← hbus]
    unfold State.beginClear
    rw [hi]
    rfl
  rw [hend]
  refine ⟨((endNotice_closed_sourceStep hn).trans (setSrc_sourceStep _ i _)).trans
    ((setBus_alike _ _).sourceStep i), rfl, heng, ?_, ?_, hqueue, hstr⟩
  · show (s.endNotice i none).notice i = none
    rw [hnot, if_pos rfl]
  · show ((s.endNotice i none).setSrc i ((s.src i).closing n.conds effective)).src i = _
    rw [State.src_setSrc, if_pos rfl]

/-- A choice of the arbiter in RUNNING changes the bus alone (R43). -/
theorem arbiter_alike (hr : s.stage = .running) : Alike s s.arbiter ∧ s.arbiter.engines = s.engines := by
  have hoff := arbiter_offBus s
  simp only [State.offBus, Prod.mk.injEq] at hoff
  obtain ⟨-, hsrc, hn, hd, he, ha, hc, -⟩ := hoff
  have hst : s.arbiter.stage = s.stage := by
    by_cases hi : s.bus.state = .idle
    · rw [arbiter_running hi hr]
      exact (choose_bus s).2.2.1
    · rw [arbiter_busy hi]
  exact ⟨⟨hst, hc, hsrc, hn, hd, ha, fun q => by simp only [State.eng, he, and_self]⟩, he⟩

/-- A clear that comes to an IDLE bus with no other clear and no bid wanted is sent at once (R42, R43). -/
theorem arbiter_sendsClear {e : ClearEntry} (hr : s.stage = .running) (hi : s.bus.state = .idle)
    (hc : s.bus.clearList = [e]) (hf : s.bus.fatLow = false ∨ s.bus.suspended = true) :
    s.arbiter = s.setBus { s.bus with clearList := [], state := s.opening (.clear e false) } := by
  have hno : ¬ s.BidDue := by
    rintro ⟨hlow, hopen, -⟩
    rw [hlow, hopen] at hf
    exact hf.elim nofun nofun
  rw [arbiter_running hi hr, choose_clear hno hc]
  rfl

/-- The rest of an event that has appended a clear to the clear list and answers p: s is the state before it, v the one
with the clear appended. -/
theorem clear_begins {e : ClearEntry} {r : Response} (hrun : s.stage = .running) (h : SourceStep s v i)
    (hb : v.bus = { s.bus with clearList := s.bus.clearList ++ [e] }) :
    Alike v (v.respond p r).arbiter ∧ (v.respond p r).arbiter.engines = (v.respond p r).engines ∧
      (s.bus.state ≠ .idle →
        (v.respond p r).arbiter.bus = { s.bus with clearList := s.bus.clearList ++ [e] }) ∧
      (s.bus.state = .idle → s.bus.clearList = [] → (s.bus.fatLow = false ∨ s.bus.suspended = true) →
        (v.respond p r).arbiter.bus = { s.bus with state := s.opening (.clear e false) }) := by
  have hvr : (v.respond p r).stage = .running := h.stage.trans hrun
  have hvb : (v.respond p r).bus = { s.bus with clearList := s.bus.clearList ++ [e] } := hb
  obtain ⟨halike, heng⟩ := arbiter_alike hvr
  refine ⟨(respond_alike v p r).trans halike, heng, fun hbusy => ?_, fun hi hc hf => ?_⟩
  · rw [arbiter_busy (by rw [hvb]; exact hbusy), hvb]
  · have hopening : (v.respond p r).opening (.clear e false) = s.opening (.clear e false) := by
      unfold State.opening
      rw [show (v.respond p r).config = s.config from h.config]
    rw [arbiter_sendsClear hvr (by rw [hvb]; exact hi) (by rw [hvb, hc]; rfl) (by rw [hvb]; exact hf), State.bus_setBus,
      hopening, hvb, ← hc]

end Sys2Proof.Machine

/-! CLOSE of a field source's notice (O37). -/

namespace Sys2Proof.Machine

variable {s : State} {p : Port} {f : Frame} {rest : List Frame}

theorem named_none (h : (s.notice f.src).all (fun n => n.mark != f.mark) = true) : s.named f = none := by
  unfold State.named
  cases hn : s.notice f.src with
  | none => rfl
  | some n =>
    rw [hn] at h
    exact if_neg (by simpa using h)

theorem named_of_mark {n : Notice} (hn : s.notice f.src = some n) (hmark : n.mark = f.mark) : s.named f = some n := by
  unfold State.named
  rw [hn]
  exact if_pos hmark

/-- A CLOSE that is refused answers and changes nothing else (R57). -/
theorem exec_close_refused {st : Status} (hs : Settled s) (hex : Executes s p .close f rest)
    (hd : (s.popped p rest).decideClose p f = (s.popped p rest).respond p (f.answer st f.pair)) :
    exec (.close p) s =
      .next (s.reply p { s.eng p with requests := rest } ⟨0x22, st, f.payload.take 3⟩) := by
  have hresp : f.answer st f.pair = ⟨0x22, st, f.payload.take 3⟩ := by
    rw [← close_pair (lengthOk_of_admitted hex.admitted)]
    exact congrArg (fun h => (⟨h, st, f.pair⟩ : Response)) hex.kind
  show Host.Outcome.next (s.execKind p .close (fun _ => true) (fun f t => t.decideClose p f)) = _
  rw [execKind_of_executes hex rfl, hd, hresp, settle_answer hs hex.may]

/-- A port that neither takes part in an event nor gains from it keeps its engine through it. -/
theorem settle_eng_of_after {u : State} {q : Port} (hs : Settled s) (hst : u.stage = s.stage) (he : u.eng q = s.eng q)
    (hq : s.queue q = [] → u.queue q = []) (ho : s.offerCount q ≤ u.offerCount q) : u.settle.eng q = s.eng q :=
  (settle_eng_of_quiet ((hs.quiet q).after hst he hq ho)).trans he

/-- The engine of a port that an event does not answer. -/
theorem eng_of_answered {v u : State} {r : Response} (he : u.engines = (v.respond p r).engines) {q : Port}
    (hq : q ≠ p) : u.eng q = v.eng q := by
  have : u.eng q = (v.respond p r).eng q := by simp only [State.eng, he]
  rw [this, respond_eng, if_neg (Ne.symm hq)]

theorem owes_of_answered {v u : State} {r : Response} (he : u.engines = (v.respond p r).engines) :
    r ∈ (u.eng p).responses := by
  have : u.eng p = (v.respond p r).eng p := by simp only [State.eng, he]
  rw [this, respond_eng, if_pos rfl]
  exact List.mem_append_right _ List.mem_cons_self

theorem popped_eng_ne {q : Port} (hq : q ≠ p) : (s.popped p rest).eng q = s.eng q :=
  (State.eng_setEng s p _ q).trans (if_neg (Ne.symm hq))

/-- Settles O37. The clear begins in `closeNotice_field`, and `clear_begins` follows it to the bus; the rest of the
event is the response to p. -/
theorem closeEndsTheNoticeAndClearsTheSource : Obligations.CloseEndsTheNoticeAndClearsTheSource := by
  unfold Obligations.CloseEndsTheNoticeAndClearsTheSource
  intro s p f rest i hs hex hnum
  have hsrc := ofNum_src hnum
  have hpop := popped_alike s p rest
  refine ⟨fun hnone => exec_close_refused hs hex ?_, fun n hn hmark hother => exec_close_refused hs hex ?_,
    fun n serviced hn hmark hclaim hoffers hfield hserviced => ?_⟩
  · unfold State.decideClose
    rw [named_none (by rw [hsrc, hpop.notice]; exact hnone)]
  · unfold State.decideClose
    rw [named_of_mark (by rw [hsrc, hpop.notice]; exact hn) hmark]
    exact if_neg hother
  subst hserviced
  have hrun := exec_close_claimed hex hsrc hn hmark hclaim
  have hrunning : s.stage = .running := running_of_admitted hex.admitted rfl
  obtain ⟨hstep, hbus, heng, hgone, hvsrc, hqueue, hstr⟩ := closeNotice_field (s := s.popped p rest)
    (line_none_of_field hfield) ((hpop.notice i).trans hn) (f.clearSet &&& n.conds)
  generalize (s.popped p rest).closeNotice i n (f.clearSet &&& n.conds) = v at *
  generalize (⟨0x22, .ok, f.payload.take 3⟩ : Response) = r at hrun ⊢
  have hvstep : SourceStep s v i := (hpop.sourceStep i).trans hstep
  obtain ⟨halike, hueng, hbusy, hsent⟩ := clear_begins (p := p) (r := r) hrunning hvstep hbus
  generalize (v.respond p r).arbiter = u at *
  have hustep : SourceStep s u i := hvstep.trans (halike.sourceStep i)
  have huqueue (q : Port) : u.queue q = (s.queue q).filter (fun j => j != i) := (halike.queue q).trans (hqueue q)
  have hustr : u.stranded = s.stranded.filter (fun j => j != i) := by
    simp only [State.stranded, halike.notices]
    exact hstr
  have hcount : ∀ q, s.offerCount q ≤ u.offerCount q := hustep.offerCount_le fun m q hm hq => by
    rw [hn] at hm
    cases hm
    rw [hoffers, PortSet.has_empty] at hq
    cases hq
  obtain ⟨hnone, hnoref, hnotlisted⟩ := settle_gone (s := u) (i := i) ((halike.notice i).trans hgone)
    (fun q => by simp [huqueue]) (by simp [hustr])
  refine ⟨_, hrun, hnone, settle_owes (owes_of_answered hueng), hnoref, hnotlisted, ?_, fun hb => ?_,
    fun hb _ hc hf => ?_, hustep.touchesOnly hs hcount, fun q hq => ?_⟩
  · rw [settle_src, halike.src, hvsrc, hpop.src]
    rfl
  · rw [settle_bus]
    exact hbusy hb
  · rw [settle_bus]
    exact hsent hb hc hf
  · refine settle_eng_of_after hs hustep.stage ?_ (fun h => by rw [huqueue, h]; rfl) (hcount q)
    rw [eng_of_answered hueng hq, ← popped_eng_ne (s := s) (rest := rest) hq]
    simp only [State.eng, heng]

end Sys2Proof.Machine

/-! CLAIM of a class that closes at the claim (O35). -/

namespace Sys2Proof.Machine

variable {s t u v : State} {p q : Port} {f : Frame} {rest : List Frame} {i : Src} {n : Notice}

/-! ### How a CLAIM with auto-close runs (R103, R61) -/

theorem ClaimMade.sourceStep (h : ClaimMade s t p i n) : SourceStep s t i where
  stage := h.stage
  config := h.config
  tx q := by rw [h.eng]
  portState q := by rw [h.eng]
  notices j hj := by rw [h.notice, if_neg (Ne.symm hj)]
  sources j _ := by simp only [State.src, h.sources]
  order := h.order.ge
  queue q := by rw [h.queue, List.filter_filter]; simp
  stranded j _ := by rw [h.stranded]
  latched := .of_attention h.attention

theorem ClaimMade.own (h : ClaimMade s t p i n) : t.notice i = some (n.claimedBy p) := by rw [h.notice, if_pos rfl]

theorem ClaimMade.src (h : ClaimMade s t p i n) (j : Src) : t.src j = s.src j := by simp only [State.src, h.sources]

/-- The other ports of the offer set are told TAKEN (R103). -/
theorem ClaimMade.told (h : ClaimMade s t p i n) (hq : q ≠ p) (ho : n.offers.has q = true) :
    ⟨i, n.mark, .taken⟩ ∈ (t.eng q).withdrawals := by
  rw [h.eng, if_pos ⟨hq, ho⟩]
  exact List.mem_append_right _ List.mem_cons_self

/-- A port outside the offer set is told nothing. -/
theorem ClaimMade.eng_of_not_offered (h : ClaimMade s t p i n) (ho : n.offers.has q = false) : t.eng q = s.eng q := by
  simp [h.eng, ho]

theorem claim_pair (h : lengthOk .claim f = true) : f.pair = f.payload := by
  obtain ⟨head, payload⟩ := f
  have hlen : payload.length = 3 := by simpa [lengthOk] using h
  match payload, hlen with
  | [a, b, c], _ => simp [Frame.pair, Frame.mark, Frame.byte, le16_ofLe16]

/-- CLAIM of an offered notice whose class closes at the claim: the claim is made, the notice is closed with all its
codes serviced, OK_AUTOCLOSED carries the conditions, and the arbiter and the transmitters choose. -/
theorem exec_claim_auto (hex : Executes s p .claim f rest) (hsrc : f.src = i) (hn : s.notice i = some n)
    (hmark : n.mark = f.mark) (hw : n.state = .waiting) (ho : n.offers.has p = true)
    (hauto : (s.clsCfg n.cls).closeMode = .auto) : exec (.claim p) s =
      .next (((((s.popped p rest).makeClaim p i n).closeNotice i (n.claimedBy p) n.conds).respond p
        ⟨0x20, .okAutoclosed, f.payload ++ le16 n.conds⟩).arbiter).settle := by
  subst hsrc
  have hresp : f.answer .okAutoclosed (f.pair ++ le16 n.conds) = ⟨0x20, .okAutoclosed, f.payload ++ le16 n.conds⟩ := by
    rw [claim_pair (lengthOk_of_admitted hex.admitted)]
    exact congrArg (fun h => (⟨h, .okAutoclosed, f.payload ++ le16 n.conds⟩ : Response)) hex.kind
  have hnamed : (s.popped p rest).named f = some n :=
    named_of_mark (((popped_alike s p rest).notice _).trans hn) hmark
  have hmode : ((s.popped p rest).clsCfg n.cls).closeMode = .auto := hauto
  have hdecide : (s.popped p rest).decideClaim p f =
      ((((s.popped p rest).makeClaim p f.src n).closeNotice f.src n n.conds).respond p
        (f.answer .okAutoclosed (f.pair ++ le16 n.conds))).arbiter := by
    unfold State.decideClaim State.claimOffered
    simp only [hnamed, hw, ho, hmode, if_true]
  show Host.Outcome.next (s.execKind p .claim (fun _ => true) (fun f t => t.decideClaim p f)) = _
  rw [execKind_of_executes hex rfl, hdecide, hresp]
  rfl

/-! ### What the claim leaves to the end of the event -/

/-- A port to which the notice of i was not offered has lost no offer. -/
theorem SourceStep.offerCount_le_of_not_offered (h : SourceStep s u i) (hn : s.notice i = some n)
    (ho : n.offers.has q = false) : s.offerCount q ≤ u.offerCount q :=
  offerCount_mono fun j m hm hq => by
    by_cases hj : j = i
    · subst hj
      rw [hn] at hm
      cases hm
      rw [ho] at hq
      cases hq
    · exact ⟨m, by rw [h.notices j hj, hm], hq⟩

/-- After a claim by p that has been answered, each port has lost no offer or has something to send. -/
theorem ClaimMade.sending {a c : State} (h : ClaimMade a c p i n) (hn : s.notice i = some n) (hstep : SourceStep s u i)
    (hr : (u.eng p).responses ≠ []) (he : ∀ q, q ≠ p → u.eng q = c.eng q) (q : Port) :
    s.offerCount q ≤ u.offerCount q ∨ (u.eng q).responses ≠ [] ∨ (u.eng q).withdrawals ≠ [] := by
  by_cases hq : q = p
  · rw [hq]
    exact .inr (.inl hr)
  · cases ho : n.offers.has q with
    | false => exact .inl (hstep.offerCount_le_of_not_offered hn ho)
    | true =>
      rw [he q hq]
      exact .inr (.inr (List.ne_nil_of_mem (h.told hq ho)))

/-- A transmitter that has no due rate and no response to send keeps of its engine all but the withdrawal list and the
frame in transmission (R131, R143). -/
theorem settle_engKept (h : (s.eng q).tx = .idle → (s.eng q).rateDue = false ∧
    ((s.eng q).state ≠ .disabled → (s.eng q).responses = [])) : s.settle.eng q = { s.eng q with
      withdrawals := (s.settle.eng q).withdrawals, tx := (s.settle.eng q).tx } := by
  obtain ⟨t, ht, he⟩ := settle_eng s q
  rw [he, ← ht]
  exact settlePort_engKept (by rwa [ht])

/-- A notice closed with all its codes leaves no arrears (R58). -/
theorem or_minus_self (arrears conds : CodeSet) : arrears ||| CodeSet.minus conds conds = arrears := by
  unfold CodeSet.minus
  ext k hk
  simp

theorem openNotice_recorded (s : State) (i : Src) (conds : CodeSet) : (s.openNotice i conds).notice i ≠ none := by
  obtain ⟨_, _, h⟩ := (walk_walkStep (s.recordOpening i conds) i).record _ (recordOpening_notice s i conds)
  rw [openNotice_eq, h]
  nofun

/-- A direct line whose clear leaves no record is not on the stranded list. -/
theorem closeNotice_line_unlisted {k : Fin 8} {m : Notice} {effective : CodeSet} (hi : i.line = some k)
    (hn : s.notice i = some n) (hgone : (s.closeNotice i m effective).notice i = none) :
    i ∉ (s.closeNotice i m effective).stranded := by
  obtain ⟨-, -, -, -, -, hstr⟩ := endNotice_closed hn
  rw [closeNotice_eq, beginClear_line hi] at hgone ⊢
  split at hgone
  · rename_i h0
    rw [if_pos h0]
    show i ∉ (s.endNotice i none).stranded
    simp [hstr]
  · exact absurd hgone (openNotice_recorded _ i _)

/-! ### The two kinds of source -/

/-- The claim of a field source's notice: the clear joins the clear list (R61, R58, R59). -/
theorem claim_auto_field (hs : Settled s) (hex : Executes s p .claim f rest)
    (hnum : Src.ofNum (f.byte 0).toNat = some i) (hfield : i.isDirect = false) (hn : s.notice i = some n)
    (hmark : n.mark = f.mark) (hw : n.state = .waiting) (ho : n.offers.has p = true)
    (hauto : (s.clsCfg n.cls).closeMode = .auto) :
    ∃ t, exec (.claim p) s = .next t ∧ t.notice i = none ∧ (∀ q, i ∉ t.queue q) ∧ i ∉ t.stranded ∧
      t.owes p ⟨0x20, .okAutoclosed, f.payload ++ le16 n.conds⟩ ∧
      (∀ q, q ≠ p → n.offers.has q = true → t.announces q ⟨i, n.mark, .taken⟩) ∧
      t.src i = (s.src i).closing n.conds n.conds ∧
      (s.bus.state ≠ .idle →
        t.bus = { s.bus with clearList := s.bus.clearList ++ [⟨i, n.conds &&& 0x7FFF, 0⟩] }) ∧
      (s.bus.state = .idle → s.bus.clearList = [] → (s.bus.fatLow = false ∨ s.bus.suspended = true) →
        t.bus = { s.bus with state := s.opening (.clear ⟨i, n.conds &&& 0x7FFF, 0⟩ false) }) ∧
      TouchesOnly s t i ∧ (∀ q, q ≠ p → n.offers.has q = false → t.eng q = s.eng q) := by
  have hpop := popped_alike s p rest
  have hrun := exec_claim_auto hex (ofNum_src hnum) hn hmark hw ho hauto
  have hrunning : s.stage = .running := running_of_admitted hex.admitted rfl
  have hmade := makeClaim_made (s.popped p rest) p i n
  generalize (s.popped p rest).makeClaim p i n = c at *
  obtain ⟨hstep, hbus, heng, hgone, hvsrc, hqueue, hstr⟩ :=
    closeNotice_field (line_none_of_field hfield) hmade.own n.conds
  generalize c.closeNotice i (n.claimedBy p) n.conds = v at *
  generalize (⟨0x20, .okAutoclosed, f.payload ++ le16 n.conds⟩ : Response) = r at hrun ⊢
  have hvstep : SourceStep s v i := ((hpop.sourceStep i).trans hmade.sourceStep).trans hstep
  rw [hmade.bus] at hbus
  obtain ⟨halike, hueng, hbusy, hsent⟩ := clear_begins (p := p) (r := r) hrunning hvstep hbus
  generalize (v.respond p r).arbiter = u at *
  have hustep : SourceStep s u i := hvstep.trans (halike.sourceStep i)
  have huqueue (q : Port) : u.queue q = (s.queue q).filter (fun j => j != i) := by
    rw [halike.queue, hqueue, hmade.queue, hpop.queue, List.filter_filter]
    simp
  have hustr : i ∉ u.stranded := by
    have : u.stranded = v.stranded := by simp only [State.stranded, halike.notices]
    simp [this, hstr]
  have hother (q : Port) (hq : q ≠ p) : u.eng q = c.eng q := by
    rw [eng_of_answered hueng hq]
    simp only [State.eng, heng]
  have howes : r ∈ (u.eng p).responses := owes_of_answered hueng
  obtain ⟨hnone, hnoref, hnotlisted⟩ := settle_gone (s := u) (i := i) ((halike.notice i).trans hgone)
    (fun q => by simp [huqueue]) hustr
  refine ⟨_, hrun, hnone, hnoref, hnotlisted, settle_owes howes, fun q hq hoq => ?_, ?_, fun hb => ?_,
    fun hb hc hf => ?_, hustep.touchesOnly_sending hs (hmade.sending hn hustep (List.ne_nil_of_mem howes) hother),
    fun q hq hoq => ?_⟩
  · refine settle_announces ?_
    rw [hother q hq]
    exact hmade.told hq hoq
  · rw [settle_src, halike.src, hvsrc, hmade.src, hpop.src]
    rfl
  · rw [settle_bus]
    exact hbusy hb
  · rw [settle_bus]
    exact hsent hb hc hf
  · refine settle_eng_of_after hs hustep.stage ?_ (fun h => by rw [huqueue, h]; rfl)
      (hustep.offerCount_le_of_not_offered hn hoq)
    rw [hother q hq, hmade.eng_of_not_offered hoq, popped_eng_ne hq]

/-- Settles O35: `claim_auto_field` for a field source; for a direct line the clear completes in `closeNotice_line`, and
the line is QUIET or opens again. -/
theorem autoCloseEndsTheNoticeAtTheClaim : Obligations.AutoCloseEndsTheNoticeAtTheClaim := by
  unfold Obligations.AutoCloseEndsTheNoticeAtTheClaim
  refine ⟨fun s p f rest i n hs hex hnum hfield hn hmark hw ho hauto => ?_,
    fun s p f rest k i n active conds hs hidle hex hnum hi hn hmark hw ho hauto h15 hcode hactive hconds => ?_⟩
  · obtain ⟨t, hrun, hnone, hnoref, hunlisted, howes, htold, hsrc, hbusy, hsent, htouches, heng⟩ :=
      claim_auto_field hs hex hnum hfield hn hmark hw ho hauto
    refine ⟨t, hrun, hnone, hnoref, hunlisted, howes, htold, ?_, hbusy, fun hb _ => hsent hb, htouches, heng⟩
    rw [hsrc]
    simp only [SourceRt.closing, or_minus_self]
    rfl
  have hline : i.line = some k := hi ▸ line_ofLine k
  have hpop := popped_alike s p rest
  have hrun := exec_claim_auto hex (ofNum_src hnum) hn hmark hw ho hauto
  have hmade := makeClaim_made (s.popped p rest) p i n
  generalize (s.popped p rest).makeClaim p i n = c at *
  have hcline : c.line k = s.line k := (show c.line k = (s.popped p rest).line k by
    simp only [State.line, hmade.sources]).trans (hpop.line k)
  have hcsrc : c.src i = s.src i := (hmade.src i).trans (hpop.src i)
  have hcstep : SourceStep s c i := (hpop.sourceStep i).trans hmade.sourceStep
  have hccfg : c.cfg i = s.cfg i := by simp only [State.cfg, hcstep.config]
  have hunlisted := closeNotice_line_unlisted (m := n.claimedBy p) (effective := n.conds) hline hmade.own
  obtain ⟨v, hclose, hstep, hbus, heng, hgone, hvline, hvsrc, hqueue⟩ :=
    closeNotice_line (effective := n.conds) (active := active) (conds := conds) hline hmade.own h15
      (by rw [hcsrc, hcode]) (by rw [hcline, hactive])
      (by rw [hccfg, hcsrc, show (n.claimedBy p).conds = n.conds from rfl, or_minus_self, hconds])
  obtain ⟨hxstep, hxbus, hxlines, hxreported, hxarrears⟩ := reopening_keeps v i conds
  have hxeng : (if conds = 0 then v else v.openNotice i conds).engines = v.engines := by
    split
    · rfl
    · exact (offSources_fields (openNotice_offSources v i conds)).2.2.2.1
  have hvstep : SourceStep s v i := hcstep.trans hstep
  rw [hclose] at hunlisted hrun
  generalize hx : (if conds = 0 then v else v.openNotice i conds) = x
    at hunlisted hrun hxstep hxbus hxlines hxreported hxarrears hxeng
  generalize (⟨0x20, .okAutoclosed, f.payload ++ le16 n.conds⟩ : Response) = r at hrun ⊢
  have hualike : Alike x (x.respond p r) := respond_alike x p r
  have hubus : (x.respond p r).bus = s.bus := hxbus.trans (hbus.trans hmade.bus)
  have hustep : SourceStep s (x.respond p r) i := (hvstep.trans hxstep).trans (hualike.sourceStep i)
  have hrest : (x.respond p r).arbiter = x.respond p r := arbiter_of_neverIdles fun h1 h2 => by
    rw [hustep.stage] at h1 ⊢
    rw [hubus] at h2 ⊢
    exact hidle h1 h2
  rw [hrest] at hrun
  have hother (q : Port) (hq : q ≠ p) : (x.respond p r).eng q = c.eng q := by
    rw [eng_of_answered rfl hq]
    simp only [State.eng, hxeng, heng]
  have howes : r ∈ ((x.respond p r).eng p).responses := owes_of_answered rfl
  have hstays : NoticeStays x (x.respond p r).settle i :=
    (hualike.noticeStays i).trans (settle_noticeStays (x.respond p r) i)
  refine ⟨_, hrun, settle_owes howes, fun q hq hoq => ?_, (settle_bus _).trans hubus, ?_, ?_, ?_, fun hne => ?_,
    fun h0 => ?_, hustep.touchesOnly_sending hs (hmade.sending hn hustep (List.ne_nil_of_mem howes) hother),
    fun q hq => ?_⟩
  · refine settle_announces ?_
    rw [hother q hq]
    exact hmade.told hq hoq
  · rw [← hcline, ← hvline]
    simp only [State.line, settle_sources, hualike.sources, hxlines]
  · rw [hstays.source, hxreported, hvsrc]
  · rw [hstays.source, hxarrears, hvsrc]
  · rw [if_neg hne] at hx
    obtain ⟨hopened, hopenings, m, hm, hmk, hcs, hcls, hmd, hlow, hhigh, hno, hends, hwalk⟩ :=
      openNotice_leaves (s := s) (v := v) (conds := conds) (t := (x.respond p r).settle) hvstep.config
        hvstep.portState (by rw [hvsrc, hcsrc]) hvstep.order (by rw [hx]; exact hstays)
    have hvqueue (q : Port) : v.queue q = (s.queue q).filter (fun j => j != i) := by
      rw [hqueue, hmade.queue, hpop.queue, List.filter_filter]
      simp
    refine ⟨hopened, hopenings, m, hm, hmk, hcs, hcls, hmd, hlow, hhigh, hno, hends, fun _ => hwalk (fun q => ?_)
      fun q => ?_⟩
    · simp [hvqueue]
    · rw [hvqueue]
      omega
  · rw [if_pos h0] at hx
    subst hx
    obtain ⟨hnone, hnoref, hnotlisted⟩ := settle_gone (s := v.respond p r) (i := i) hgone
      (fun q hq => by
        have hq : i ∈ v.queue q := hq
        simp [hqueue] at hq)
      (hunlisted hgone)
    exact ⟨by rw [hstays.source, hvsrc], hnone, hnoref, hnotlisted⟩
  · have hengq : (x.respond p r).eng q = { s.eng q with withdrawals := (c.eng q).withdrawals } := by
      rw [hother q hq, hmade.eng, popped_eng_ne hq]
    have hkept := settle_engKept (s := x.respond p r) (q := q) fun hidle => by
      rw [hengq] at hidle ⊢
      obtain ⟨hrate, hlists⟩ := hs.quiet q hidle
      exact ⟨hrate, fun hon => (hlists hon).1⟩
    rw [hengq] at hkept
    exact hkept

end Sys2Proof.Machine

/-! SOURCE_DISABLE, and the writes that disable a source (O47). -/

namespace Sys2Proof.Machine

variable {s t u : State} {p q : Port} {f : Frame} {rest : List Frame} {i : Src} {n : Notice}

/-! ### The end of a notice with a reason (R65, R66) -/

/-- What the end of the notice of i with a reason leaves, where there was one. -/
structure NoticeEnded (s t : State) (i : Src) (r : Reason) : Prop where
  stage : t.stage = s.stage
  sources : t.sources = s.sources
  bus : t.bus = s.bus
  config : t.config = s.config
  gone : t.notice i = none
  unreferenced : ∀ q, i ∉ t.queue q
  unlisted : i ∉ t.stranded
  eng : ∀ q, (t.eng q).state = (s.eng q).state ∧ (t.eng q).requests = (s.eng q).requests
  told : ∀ n q, s.notice i = some n → (n.offers.has q = true ∨ n.state = .claimed q) →
    ⟨i, n.mark, r⟩ ∈ (t.eng q).withdrawals

theorem withdrawAll_eng (s : State) (i : Src) (n : Notice) (r : Reason) (q : Port) :
    (s.withdrawAll i n r).eng q = { s.eng q with withdrawals := (s.eng q).withdrawals ++
      if (n.offers.has q || n.state == .claimed q) = true then [⟨i, n.mark, r⟩] else [] } :=
  foldl_withdraw_eng s ⟨i, n.mark, r⟩ (fun q => (n.offers.has q || n.state == .claimed q) = true) q

theorem endNotice_ended (h : Placed [] s) (i : Src) (r : Reason) : NoticeEnded s (s.endNotice i (some r)) i r := by
  cases hn : s.notice i with
  | none =>
    have hsame : s.endNotice i (some r) = s := by
      unfold State.endNotice
      rw [hn]
    obtain ⟨hq, hl⟩ := h.places.vacant hn
    rw [hsame]
    exact ⟨rfl, rfl, rfl, rfl, hn, hq, hl, fun _ => ⟨rfl, rfl⟩, fun m q hm => by rw [hn] at hm; cases hm⟩
  | some n =>
    obtain ⟨hst, hsrc, hnot, -, hbus, -, hcfg⟩ := offEngines_fields (withdrawAll_offEngines s i n r)
    have heng := withdrawAll_eng s i n r
    obtain ⟨hw, hend⟩ := endNotice_withdrawn hn r
    rw [hend]
    generalize s.withdrawAll i n r = w at *
    obtain ⟨hoff, -, hgone, -, hqueue, hstr⟩ := endNotice_closed hw
    obtain ⟨-, hst', hsrc', hbus', heng', hcfg', -⟩ := offNotices_fields hoff
    have hsame (q : Port) : (w.endNotice i none).eng q = w.eng q := by simp only [State.eng, heng']
    exact {
      stage := hst'.trans hst
      sources := hsrc'.trans hsrc
      bus := hbus'.trans hbus
      config := hcfg'.trans hcfg
      gone := by rw [hgone, if_pos rfl]
      unreferenced := fun q => by simp [hqueue]
      unlisted := by simp [hstr]
      eng := fun q => by rw [hsame, heng]; exact ⟨rfl, rfl⟩
      told := fun m q hm hplace => by
        rw [hn] at hm
        cases hm
        rw [hsame, heng, if_pos (by simpa using hplace)]
        exact List.mem_append_right _ List.mem_cons_self }

/-! ### A source that a write disables (R4, R34, R35) -/

/-- A source that a write disables takes its reset fields (R4). -/
def SourceRt.disabled (r : SourceRt) : SourceRt :=
  { r with state := .disabled, arrears := 0, code15 := false, failures := 0, reach := .reachable }

/-- What a disable leaves but for the end of the notice. -/
theorem disableSource_parts (s : State) (i : Src) :
    (s.disableSource i).stage = (s.endNotice i (some .disabled)).stage ∧
      (s.disableSource i).notices = (s.endNotice i (some .disabled)).notices ∧
      (s.disableSource i).delivery = (s.endNotice i (some .disabled)).delivery ∧
      (s.disableSource i).engines = (s.endNotice i (some .disabled)).engines ∧
      (s.disableSource i).config = (s.endNotice i (some .disabled)).config ∧
      (s.disableSource i).bus = { (s.endNotice i (some .disabled)).bus with
        clearList := (s.endNotice i (some .disabled)).bus.clearList.filter (fun e => e.src != i)
        state := (s.endNotice i (some .disabled)).bus.state.discardClear i } ∧
      (∀ k, i = Src.ofLine k →
        (s.disableSource i).line k = { (s.endNotice i (some .disabled)).line k with latch := false }) := by
  unfold State.disableSource
  dsimp only
  split
  · rename_i k hk
    refine ⟨rfl, rfl, rfl, rfl, rfl, rfl, fun j hj => ?_⟩
    obtain rfl : k = j := ofLine_injective ((line_some hk).symm.trans hj)
    rw [State.line_setLine, if_pos rfl]
    rfl
  · rename_i hk
    refine ⟨rfl, rfl, rfl, rfl, rfl, rfl, fun j hj => ?_⟩
    rw [hj, line_ofLine] at hk
    cases hk

theorem disableSource_src (s : State) (i j : Src) :
    (s.disableSource i).src j = if i = j then (s.src i).disabled else s.src j := by
  have := congrArg SourceView.rt (disableSource_sourceView s i j)
  refine this.trans ?_
  split <;> rfl

/-- What a write that disables the source of i leaves, before it is answered. -/
structure SourceOff (s t : State) (i : Src) (new : SourceCfg) : Prop where
  stage : t.stage = s.stage
  config : t.config = (s.setCfg i new).config
  src : ∀ j, t.src j = if i = j then (s.src i).disabled else s.src j
  line : ∀ k, i = Src.ofLine k → t.line k = { s.line k with latch := false }
  bus : t.bus = { s.bus with
    clearList := s.bus.clearList.filter (fun e => e.src != i), state := s.bus.state.discardClear i }
  gone : t.notice i = none
  unreferenced : ∀ q, i ∉ t.queue q
  unlisted : i ∉ t.stranded
  eng : ∀ q, (t.eng q).state = (s.eng q).state ∧ (t.eng q).requests = (s.eng q).requests
  told : ∀ n q, s.notice i = some n → (n.offers.has q = true ∨ n.state = .claimed q) →
    ⟨i, n.mark, .disabled⟩ ∈ (t.eng q).withdrawals

theorem disableSource_off (h : Placed [] s) (i : Src) (new : SourceCfg) :
    SourceOff s ((s.disableSource i).setCfg i new) i new := by
  have hended := endNotice_ended h i .disabled
  obtain ⟨hst, hn, hd, he, hc, hb, hline⟩ := disableSource_parts s i
  have hsrc := disableSource_src s i
  generalize s.endNotice i (some .disabled) = e at *
  generalize s.disableSource i = d at *
  have heng (q : Port) : (d.setCfg i new).eng q = e.eng q := congrArg (fun x : PerPort PortEngine => x.get q) he
  exact {
    stage := hst.trans hended.stage
    config := by simp only [State.setCfg, hc, hended.config]
    src := hsrc
    line := fun k hk => (hline k hk).trans (by simp only [State.line, hended.sources])
    bus := hb.trans (by rw [hended.bus])
    gone := (congrArg (fun x : NoticeTable => x.records.get i) hn).trans hended.gone
    unreferenced := fun q hq => hended.unreferenced q (by
      rwa [show (d.setCfg i new).queue q = e.queue q from congrArg (fun x => x.queues.get q) hd] at hq)
    unlisted := fun hi => hended.unlisted (by
      rwa [show (d.setCfg i new).stranded = e.stranded from congrArg NoticeTable.stranded hn] at hi)
    eng := fun q => by rw [heng]; exact hended.eng q
    told := fun n q hm hplace => by rw [heng]; exact hended.told n q hm hplace }

/-- A trigger of the pass is no part of it (R89). -/
theorem SourceOff.triggerIf {new : SourceCfg} (h : SourceOff s t i new) (c : Bool) :
    SourceOff s (t.triggerIf c) i new := by
  obtain ⟨hst, hs, hn, hb, he, -, hc⟩ := offDelivery_fields (triggerIf_offDelivery t c)
  have heng (q : Port) : (t.triggerIf c).eng q = t.eng q := by simp only [State.eng, he]
  exact {
    stage := hst.trans h.stage
    config := hc.trans h.config
    src := fun j => by rw [← h.src j]; simp only [State.src, hs]
    line := fun k hk => by rw [← h.line k hk]; simp only [State.line, hs]
    bus := hb.trans h.bus
    gone := by rw [← h.gone]; simp only [State.notice, hn]
    unreferenced := fun q => by rw [triggerIf_queue]; exact h.unreferenced q
    unlisted := by
      rw [show (t.triggerIf c).stranded = t.stranded by simp only [State.stranded, hn]]
      exact h.unlisted
    eng := fun q => by rw [heng]; exact h.eng q
    told := fun n q hm hplace => by rw [heng]; exact h.told n q hm hplace }

theorem writeSource_off {new : SourceCfg} (h : Placed [] s) (ho : (s.cfg i).enabled = true)
    (hn : new.enabled = false) : SourceOff s (s.writeSource i new) i new := by
  have hwrite : s.writeSource i new =
      ((s.disableSource i).setCfg i new).triggerIf ((s.cfg i).route != new.route) := by
    unfold State.writeSource
    simp [ho, hn]
  rw [hwrite]
  exact (disableSource_off h i new).triggerIf _

/-! ### How a disabling write runs -/

/-- Bit 0 of the content says whether the source is enabled (R146). -/
theorem decodeSource_enabled {content : List Byte} {new : SourceCfg} (h : decodeSource i content = some new) :
    (content.getD 0 0).getLsbD 0 = new.enabled := by
  unfold decodeSource at h
  split at h
  · split at h
    · cases h
    · dsimp only at h
      split at h
      · cases h
        rfl
      · cases h
  · cases h

/-- Both commands of a disabling write fit its frame. -/
theorem fits_of_disable {c : Instr} {index : Byte} {content : List Byte} {new : SourceCfg}
    (hc : c = .sourceDisable p ∨ c = .writeSourceEntry p) (hp : f.payload = 0 :: index :: content)
    (hnew : decodeSource i content = some new) (hoff : new.enabled = false) : c.fits s f = true := by
  have hwrites : f.writes 0 = true := by
    unfold Frame.writes
    rw [hp]
    rfl
  have hsays : f.saysEnabled = false := by
    rw [← hoff, ← decodeSource_enabled hnew]
    unfold Frame.saysEnabled Frame.byte
    rw [hp]
    rfl
  rcases hc with rfl | rfl
  · show (f.writes 0 && !f.saysEnabled) = true
    rw [hwrites, hsays]
    rfl
  · show (f.writes 0 || f.writesNone) = true
    rw [hwrites]
    rfl

/-- Settles O47: `writeSource_off` says what the write does, and its response and the transmitters' choice leave
that. -/
theorem sourceDisableEndsTheNotice : Obligations.SourceDisableEndsTheNotice := by
  unfold Obligations.SourceDisableEndsTheNotice
  intro s c p f rest index content i new hok hc hw hi hnew hon hoff
  have hpop := popped_alike s p rest
  have hfits : c.fits s f = true := fits_of_disable hc hw.payload hnew hoff
  have hrun := exec_source_write (hc.elim (.inr ∘ .inl) (.inr ∘ .inr)) hfits hw hi hnew
  have h : SourceOff (s.popped p rest) ((s.popped p rest).writeSource i new) i new :=
    writeSource_off (hok.placed.congr (setEng_board s p _)) hon hoff
  generalize (s.popped p rest).writeSource i new = w at hrun h
  have hrespond : w.respondIfOn p (writeOk 0 index) = w.respond p (writeOk 0 index) :=
    if_neg (by rw [(h.eng p).1, (hpop.ports p).2]; exact ((mayExecute_iff s p).mp hw.executes.may).2.1)
  rw [hrespond] at hrun
  have hualike := respond_alike w p (writeOk 0 index)
  generalize hu : w.respond p (writeOk 0 index) = u at hrun hualike
  have hubus : u.bus = w.bus := by rw [← hu]; rfl
  have hueng (q : Port) : (u.eng q).state = (w.eng q).state ∧ (u.eng q).requests = (w.eng q).requests ∧
      (u.eng q).withdrawals = (w.eng q).withdrawals := by
    rw [← hu, respond_eng]
    split
    · subst_vars
      exact ⟨rfl, rfl, rfl⟩
    · exact ⟨rfl, rfl, rfl⟩
  have howes : writeOk 0 index ∈ (u.eng p).responses := owes_of_answered (congrArg State.engines hu.symm)
  obtain ⟨-, htst, -, -, htc, -⟩ := offLinks_fields (settle_offLinks u)
  have hconfig : u.settle.config = (s.setCfg i new).config := htc.trans (hualike.config.trans h.config)
  have hcfg (j : Src) : u.settle.cfg j = if i = j then new else s.cfg j := by
    rw [← State.cfg_setCfg]
    simp only [State.cfg, hconfig]
  have hsrc (j : Src) : u.settle.src j = if i = j then (s.src i).disabled else s.src j := by
    rw [settle_src, hualike.src, h.src, hpop.src, hpop.src]
  obtain ⟨hnone, hnoref, hunlisted⟩ := settle_gone (s := u) (i := i) ((hualike.notice i).trans h.gone)
    (fun q => by rw [hualike.queue]; exact h.unreferenced q)
    (by rw [show u.stranded = w.stranded from congrArg NoticeTable.stranded hualike.notices]; exact h.unlisted)
  have hbus := (settle_bus u).trans (hubus.trans h.bus)
  refine ⟨u.settle, hrun, settle_owes howes, ?_, fun j hj => ⟨?_, ?_⟩, hnone, hnoref, hunlisted,
    fun n q hn hplace => ?_, ?_, fun k hk => ?_, ?_, fun g x hg hx hxi => ?_,
    htst.trans (hualike.stage.trans (h.stage.trans hpop.stage)),
    fun q => ⟨?_, ?_⟩, hconfig⟩
  · rw [hcfg, if_pos rfl]
  · rw [hcfg, if_neg (Ne.symm hj)]
  · rw [hsrc, if_neg (Ne.symm hj)]
  · refine settle_announces ?_
    rw [(hueng q).2.2]
    exact h.told n q ((hpop.notice i).trans hn) hplace
  · rw [hsrc, if_pos rfl]
    rfl
  · rw [← hpop.line k, ← h.line k hk]
    simp only [State.line, settle_sources, hualike.sources]
  · rw [hbus]
    rfl
  · rw [hbus]
    show s.bus.state.discardClear i = _
    simp [BusState.discardClear, hg, hx, hxi]
  · rw [(settle_eng_keeps u q).1, (hueng q).1, (h.eng q).1, (hpop.ports q).2]
  · rw [(settle_eng_keeps u q).2, (hueng q).2.1, (h.eng q).2]
    by_cases hq : q = p
    · rw [hq, if_pos rfl, State.popped, State.eng_setEng, if_pos rfl]
    · rw [if_neg hq, popped_eng_ne hq]

end Sys2Proof.Machine

/-! SUPPORT. How a WRITE_ENTRY that its configuration unit accepts runs and answers, whatever table it writes. -/

namespace Sys2Proof.Machine

variable {s u w : State} {p : Port} {f : Frame} {rest : List Frame} {table index : Byte} {content : List Byte}

/-! ### How an accepted write runs (R174) -/

theorem WriteTaken.bytes (h : WriteTaken s p f rest table index content) :
    f.byte 0 = table ∧ f.byte 1 = index ∧ f.content = content := by
  simp [Frame.byte, Frame.content, h.payload]

theorem WriteTaken.writes (h : WriteTaken s p f rest table index content) (k : Nat) (hk : table = byteOf k) :
    f.writes k = true := by
  simp [Frame.writes, h.payload, hk]

theorem WriteTaken.portOn (h : WriteTaken s p f rest table index content) : (s.eng p).state ≠ .disabled :=
  ((mayExecute_iff s p).mp h.executes.may).2.1

/-- The write takes effect, OK is made, and the transmitters choose. -/
theorem execWrite_taken {row : Frame → Bool} (h : WriteTaken s p f rest table index content) (hrow : row f = true)
    (happly : (s.popped p rest).applyWrite p f = some w) :
    s.execWrite p row = (w.respondIfOn p (writeOk table index)).settle := by
  obtain ⟨htable, hindex, -⟩ := h.bytes
  have hright : (s.popped p rest).config.right = some p := h.right
  have hstore : (s.popped p rest).config.store = .idle := h.store
  unfold State.execWrite
  rw [execKind_of_executes h.executes hrow]
  unfold State.decideWrite Frame.answer writeOk
  simp only [hright, hstore, happly, htable, hindex, h.executes.kind, ne_eq, not_true_eq_false, if_false]

/-- A write that leaves every transmitter at rest answers as `State.reply` says. -/
theorem popped_replies {r : Response} (hu : Settled u) (hon : (u.eng p).state ≠ .disabled) :
    ((u.popped p rest).respondIfOn p r).settle = u.reply p { u.eng p with requests := rest } r := by
  have hpop : ((u.popped p rest).eng p).state = (u.eng p).state := ((popped_alike u p rest).ports p).2
  unfold State.respondIfOn
  rw [if_neg (hpop ▸ hon)]
  exact settle_respond hu hon hon rfl rfl (fun hidle => (hu.quiet p hidle).1)

end Sys2Proof.Machine

/-! CLASS, ORDER and DEVICE writes (O49). -/

namespace Sys2Proof.Machine

variable {s u w : State} {p : Port} {f : Frame} {rest : List Frame} {index : Byte} {content : List Byte}

/-! ### The rank order and the queues (R74, R76, R78) -/

/-- The state with a rank order in force, before any queue is reordered. -/
def State.ranked (s : State) (order : List (Fin 8)) : State :=
  { s with config := { s.config with tables := { s.config.tables with order := order } } }

/-- The queues in the order that a rank order gives them. -/
def State.reordered (s : State) (order : List (Fin 8)) : PerPort (List Src) :=
  if s.config.tables.order = order then s.delivery.queues
  else PerPort.build (fun q => sortByKey (s.ranked order).queueKey (s.queue q))

/-- An ORDER write changes the rank order and the queues (R78). -/
theorem writeRank_eq (s : State) (order : List (Fin 8)) : s.writeRank order =
    { s.ranked order with delivery := { s.delivery with queues := s.reordered order } } := by
  unfold State.writeRank State.reordered
  split
  · subst_vars
    rfl
  · rfl

theorem reordered_perm (s : State) (order : List (Fin 8)) (q : Port) :
    ((s.reordered order).get q).Perm (s.queue q) := by
  unfold State.reordered
  split
  · exact .refl _
  · rw [PerPort.get_build]
    exact sortByKey_perm _ _

/-- A queue in the order of its keys holds its notices by rank position, and those of one rank position by age (R76). -/
theorem keyBefore_queueKey {i j : Src} {a b : Notice} (hi : s.notice i = some a) (hj : s.notice j = some b)
    (h : keyBefore (s.queueKey j) (s.queueKey i) = false) :
    s.rankOf a.cls < s.rankOf b.cls ∨ (s.rankOf a.cls = s.rankOf b.cls ∧ a.order ≤ b.order) := by
  simp only [State.queueKey, hi, hj, keyBefore, Bool.or_eq_false_iff, Bool.and_eq_false_iff, decide_eq_false_iff_not,
    beq_eq_false_iff_ne, ne_eq] at h
  omega

theorem reordered_sorted {order : List (Fin 8)} (h : order ≠ s.config.tables.order) (q : Port) :
    ((s.reordered order).get q).Pairwise (fun i j => ∀ a b, s.notice i = some a → s.notice j = some b →
      order.idxOf a.cls < order.idxOf b.cls ∨ (order.idxOf a.cls = order.idxOf b.cls ∧ a.order ≤ b.order)) := by
  unfold State.reordered
  rw [if_neg (Ne.symm h), PerPort.get_build]
  exact (sortByKey_sorted (s.ranked order).queueKey (s.queue q)).imp
    fun hkey _ _ hi hj => keyBefore_queueKey (s := s.ranked order) hi hj hkey

/-- Queues that are reordered leave every transmitter at rest. -/
theorem Settled.of_perm (h : Settled s) (hst : u.stage = s.stage) (hn : u.notices = s.notices)
    (he : u.engines = s.engines) (hq : ∀ q, (u.queue q).Perm (s.queue q)) : Settled u where
  live q i hi := by
    have hlive := h.live q i ((hq q).mem_iff.mp hi)
    simpa only [State.notice, hn] using hlive
  quiet q := by
    refine (h.quiet q).after hst (by simp only [State.eng, he]) (fun hempty => ?_) ?_
    · exact (hempty ▸ hq q).eq_nil
    · simp only [State.offerCount, State.notice, hn, le_refl]

/-! ### The three writes -/

theorem applyWrite_class (s : State) (p : Port) (h : f.byte 0 = 2) : s.applyWrite p f =
    (decodeClass f.content).map (s.setClsCfg (Fin.ofNat 8 (f.byte 1).toNat)) := by
  unfold State.applyWrite
  rw [h]
  rfl

theorem applyWrite_order (s : State) (p : Port) (h : f.byte 0 = 3) :
    s.applyWrite p f = (decodeOrder f.content).map s.writeRank := by
  unfold State.applyWrite
  rw [h]
  rfl

theorem applyWrite_device (s : State) (p : Port) (h : f.byte 0 = 5) :
    s.applyWrite p f = (decodeDevice f.content).map s.writeDevice := by
  unfold State.applyWrite
  rw [h]
  rfl

theorem exec_class_write {k : Fin 8} {new : ClassCfg} (hs : Settled s)
    (hw : WriteTaken s p f rest 2 index content) (hk : index.toNat = k.val) (hnew : decodeClass content = some new) :
    exec (.writeClassEntry p) s = .next ((s.setClsCfg k new).reply p { s.eng p with requests := rest }
      (writeOk 2 index)) := by
  obtain ⟨htable, hindex, hcontent⟩ := hw.bytes
  have happly : (s.popped p rest).applyWrite p f = some ((s.setClsCfg k new).popped p rest) := by
    rw [applyWrite_class _ p htable, hcontent, hnew, hindex, hk, Fin.ofNat_val_eq_self]
    rfl
  refine congrArg Host.Outcome.next ((execWrite_taken hw (by simp [hw.writes 2 rfl]) happly).trans ?_)
  exact popped_replies (u := s.setClsCfg k new) (hs.congr rfl rfl (fun _ => rfl) rfl) hw.portOn

theorem exec_device_write {new : DeviceCfg} (hs : Settled s) (hw : WriteTaken s p f rest 5 index content)
    (hnew : decodeDevice content = some new) :
    exec (.writeDeviceEntry p) s = .next ((s.writeDevice new).reply p { s.eng p with requests := rest }
      (writeOk 5 index)) := by
  obtain ⟨htable, -, hcontent⟩ := hw.bytes
  have happly : (s.popped p rest).applyWrite p f = some ((s.writeDevice new).popped p rest) := by
    rw [applyWrite_device _ p htable, hcontent, hnew]
    rfl
  refine congrArg Host.Outcome.next ((execWrite_taken hw (by simp [hw.writes 5 rfl]) happly).trans ?_)
  exact popped_replies (u := s.writeDevice new) (hs.congr rfl rfl (fun _ => rfl) rfl) hw.portOn

theorem exec_order_write {new : List (Fin 8)} (hs : Settled s) (hw : WriteTaken s p f rest 3 index content)
    (hnew : decodeOrder content = some new) :
    exec (.writeOrder p) s = .next
      (State.reply { s.ranked new with delivery := { s.delivery with queues := s.reordered new } } p
        { s.eng p with requests := rest } (writeOk 3 index)) := by
  obtain ⟨htable, -, hcontent⟩ := hw.bytes
  have hu := writeRank_eq s new
  have happly : (s.popped p rest).applyWrite p f = some ((s.writeRank new).popped p rest) := by
    rw [applyWrite_order _ p htable, hcontent, hnew, Option.map_some, writeRank_eq, hu]
    rfl
  have hsettled : Settled (s.writeRank new) := by
    rw [hu]
    exact hs.of_perm rfl rfl rfl (reordered_perm s new)
  have heng : (s.writeRank new).eng p = s.eng p := by
    rw [hu]
    rfl
  rw [← heng, ← hu]
  exact congrArg Host.Outcome.next
    ((execWrite_taken hw (by simp [hw.writes 3 rfl]) happly).trans (popped_replies hsettled (heng ▸ hw.portOn)))

/-- Settles O49, write by write. -/
theorem classOrderAndDeviceWrites : Obligations.ClassOrderAndDeviceWrites := by
  unfold Obligations.ClassOrderAndDeviceWrites
  intro s p f rest index content hs
  refine ⟨fun k new hw hk hnew => exec_class_write hs hw hk hnew, fun new hw hnew => exec_device_write hs hw hnew,
    fun new hw hnew => ⟨s.reordered new, exec_order_write hs hw hnew, fun he => ?_, fun hne q => ?_⟩⟩
  · exact if_pos he.symm
  · exact ⟨reordered_perm s new q, reordered_sorted hne q⟩

end Sys2Proof.Machine

/-! PASS_WALK (O20). -/

namespace Sys2Proof.Machine

variable {s t u : State} {i : Src} {rest : List Src} {n : Notice} {p : Port}

/-! ### The walk of a STRANDED notice (R84, R85, R88) -/

/-- A walk never strands a notice that is STRANDED already (R88). -/
theorem walk_stranded (hn : s.notice i = some n) (hst : n.state = .stranded) : s.walk i = s.placeRefs i n := by
  unfold State.walk
  simp [hn, hst]

/-- Where no port of the route can take the notice, nothing is placed. -/
theorem placeRefs_none (h : ∀ p ∈ (s.cfg i).route.ports, s.eligible i n p = false) : s.placeRefs i n = s := by
  unfold State.placeRefs
  split
  · rw [List.find?_eq_none.mpr fun p hp => by simp [h p hp]]
  · generalize (s.cfg i).route.ports = l at h
    induction l with
    | nil => rfl
    | cons p l ih =>
      rw [List.foldl_cons, h p List.mem_cons_self, if_neg (by simp)]
      exact ih fun q hq => h q (List.mem_cons_of_mem p hq)

/-- What placing leaves of a notice without references, where some port of its route can take it: it is WAITING and off
the stranded list, and referenced at the first such port where it is DIRECTED, at every one where it is SHARED (R85). -/
structure RefsPlaced (s t : State) (i : Src) (n : Notice) : Prop where
  record : t.notice i = some { n with state := .waiting }
  stranded : t.stranded = s.stranded.filter (fun j => j != i)
  shared : n.mode = .shared → ∀ p, i ∈ t.queue p ↔ p ∈ (s.cfg i).route.ports ∧ s.eligible i n p = true
  directed : n.mode = .directed → ∀ p, i ∈ t.queue p ↔ (s.cfg i).route.ports.find? (s.eligible i n) = some p

theorem giveRef_stranded (s : State) (i : Src) (p : Port) :
    (s.giveRef i p).stranded = s.stranded.filter (fun j => j != i) := by
  show (((s.insertRef p i).modNotice i _).stranded.filter _) = _
  rw [(modNotice_rest (s.insertRef p i) i _).2.2.2]
  rfl

/-- References given one after the other take the notice off the stranded list as the first of them does. -/
theorem foldl_giveRef_stranded (i : Src) (n : Notice) (l : List Port) (s : State)
    (h : s.stranded.filter (fun j => j != i) = s.stranded ∨ ∃ p ∈ l, s.eligible i n p = true) :
    (l.foldl (fun t p => if t.eligible i n p then t.giveRef i p else t) s).stranded =
      s.stranded.filter (fun j => j != i) := by
  induction l generalizing s with
  | nil => exact (h.resolve_right (by simp)).symm
  | cons p l ih =>
    rw [List.foldl_cons]
    by_cases he : s.eligible i n p = true
    · rw [if_pos he, ih _ (.inl (by rw [giveRef_stranded, List.filter_filter]; simp)), giveRef_stranded,
        List.filter_filter]
      simp
    · rw [if_neg he]
      refine ih s (h.imp_right ?_)
      rintro ⟨q, hq, hqe⟩
      rcases List.mem_cons.mp hq with rfl | hq
      · exact absurd hqe he
      · exact ⟨q, hq, hqe⟩

theorem placeRefs_placed (hn : s.notice i = some n) (hq : ∀ p, i ∉ s.queue p)
    (hex : ∃ p ∈ (s.cfg i).route.ports, s.eligible i n p = true) : RefsPlaced s (s.placeRefs i n) i n := by
  unfold State.placeRefs
  cases hm : n.mode with
  | directed =>
    obtain ⟨q, hf⟩ := Option.isSome_iff_exists.mp (List.find?_isSome.mpr hex)
    dsimp only
    rw [hf]
    refine ⟨giveRef_notice hn q, giveRef_stranded s i q, by simp [hm], fun _ p => ?_⟩
    rw [giveRef_queue, hf]
    by_cases hqp : q = p
    · simp [hqp]
    · simp [hqp, hq p]
  | shared =>
    obtain ⟨hqueue, hrecord⟩ := foldl_giveRef i n (s.cfg i).route.ports s n hn
    refine ⟨?_, foldl_giveRef_stranded i n _ s (.inr hex), fun _ p => ?_, by simp [hm]⟩
    · rw [hrecord, if_pos (List.any_eq_true.mpr hex)]
    · rw [hqueue p]
      simp [hq p]

/-! ### One walk of the pass (R88, R90) -/

/-- A pass whose list has come to its end begins again where a trigger is remembered (R90). -/
theorem endPass_passList (s : State) : s.endPass.delivery.passList =
    if s.delivery.passList = [] ∧ s.delivery.passPending = true then s.stranded else s.delivery.passList := by
  unfold State.endPass
  split
  · rename_i hl
    split
    · rename_i hp
      rw [if_pos ⟨hl, hp⟩]
      rfl
    · rename_i hp
      rw [if_neg fun h => hp h.2]
  · rename_i hl
    simp [hl]

/-- The head of the pass list, STRANDED, leaves the list and is placed. -/
theorem passStep_stranded (hl : s.delivery.passList = i :: rest) (hi : i ∈ s.stranded) (hn : s.notice i = some n)
    (hst : n.state = .stranded) :
    s.passStep = ((s.setPass rest s.delivery.passPending).placeRefs i n).endPass := by
  have hwalk := walk_stranded (s := s.setPass rest s.delivery.passPending) hn hst
  have hmem : (s.setPass rest s.delivery.passPending).stranded.contains i = true := List.contains_iff_mem.mpr hi
  unfold State.passStep
  rw [hl]
  dsimp only
  rw [if_pos hmem, hwalk]

theorem setPass_sourceStep (s : State) (l : List Src) (pend : Bool) (i : Src) : SourceStep s (s.setPass l pend) i :=
  .of_eq (s := s) (t := s.setPass l pend) rfl rfl (fun _ => ⟨rfl, rfl⟩) rfl rfl (fun _ => rfl) rfl i

theorem endPass_sourceStep (s : State) (i : Src) : SourceStep s s.endPass i := by
  obtain ⟨hst, hs, hn, -, he, ha, hc⟩ := offDelivery_fields (endPass_offDelivery s)
  exact .of_eq hst hc (fun p => by simp only [State.eng, he, and_self]) hs hn (endPass_queue s) ha i

/-- A walk takes back no offer. -/
theorem WalkStep.offerCount_le (h : WalkStep s t i) (p : Port) : s.offerCount p ≤ t.offerCount p := by
  refine h.sourceStep.offerCount_le (fun m q hm hq => ?_) p
  obtain ⟨_, _, hrecord⟩ := h.record m hm
  exact ⟨_, hrecord, hq⟩

/-- What a walk of the pass leaves besides the notice it walks: the sources, the bus, the engines and the other notices,
and no port has lost an offer. -/
structure PassStepped (s u : State) (i : Src) : Prop where
  touches : SourceStep s u i
  sources : u.sources = s.sources
  bus : u.bus = s.bus
  engines : u.engines = s.engines
  offers : ∀ p, s.offerCount p ≤ u.offerCount p

theorem passStepped (s : State) (rest : List Src) (pend : Bool) (i : Src) (n : Notice) :
    PassStepped s ((s.setPass rest pend).placeRefs i n).endPass i := by
  generalize hv : s.setPass rest pend = v
  have hvs : SourceStep s v i := hv ▸ setPass_sourceStep s rest pend i
  obtain ⟨-, hsrc, hn, hbus, heng, -⟩ := offDelivery_fields (endPass_offDelivery (v.placeRefs i n))
  obtain ⟨-, -, hsrc', hbus', heng', -⟩ := offNotices_fields (placeRefs_offNotices v i n)
  have hoffers (p : Port) : (v.placeRefs i n).endPass.offerCount p = (v.placeRefs i n).offerCount p := by
    simp only [State.offerCount, State.notice, hn]
  refine ⟨(hvs.trans (placeRefs_walkStep v i n).sourceStep).trans (endPass_sourceStep _ i),
    hsrc.trans (hsrc'.trans (hv ▸ rfl)), hbus.trans (hbus'.trans (hv ▸ rfl)), heng.trans (heng'.trans (hv ▸ rfl)),
    fun p => ?_⟩
  rw [hoffers, show s.offerCount p = v.offerCount p from hv ▸ rfl]
  exact (placeRefs_walkStep v i n).offerCount_le p

/-- The end of an event that left the port engines at rest keeps them, but for withdrawal lists and transmissions. -/
theorem settle_linksKept_of_engines (hs : Settled s) (he : u.engines = s.engines) : LinksKept s u.settle := by
  have heng (q : Port) : u.eng q = s.eng q := by simp only [State.eng, he]
  have hlinks : LinksKept u u.settle := settle_linksKept fun q hidle => by
    rw [heng] at hidle ⊢
    obtain ⟨hrate, hlists⟩ := hs.quiet q hidle
    exact ⟨hrate, fun hon => (hlists hon).1⟩
  exact fun q => heng q ▸ hlinks q

theorem settle_stranded (s : State) : s.settle.stranded = s.stranded := by
  unfold State.settle
  simp only [(settlePort_strandedList _ _).1]

/-! ### PASS_WALK -/

/-- A pass that no port takes the notice from: notices and queues stand, and the pass goes on, ends, or begins again. -/
theorem passWalk_notTaken (hs : Settled s) (hnone : ∀ p ∈ (s.cfg i).route.ports, s.eligible i n p = false)
    (hu : u = ((s.setPass rest s.delivery.passPending).placeRefs i n).endPass) :
    u.settle.notices = s.notices ∧ u.settle.delivery.queues = s.delivery.queues ∧
      u.settle.delivery.passList = if rest = [] ∧ s.delivery.passPending = true then s.stranded else rest := by
  have hstep : PassStepped s u i := hu ▸ passStepped s rest _ i n
  have hplaced : (s.setPass rest s.delivery.passPending).placeRefs i n = s.setPass rest s.delivery.passPending :=
    placeRefs_none hnone
  rw [hplaced] at hu
  have hqueue (p : Port) : u.queue p = s.queue p := by
    rw [hu, endPass_queue]
    rfl
  obtain ⟨hnotices, hdelivery⟩ := hstep.touches.settle_stands hs hstep.offers hqueue
  obtain ⟨-, -, hn, -⟩ := offDelivery_fields (endPass_offDelivery (s.setPass rest s.delivery.passPending))
  refine ⟨hnotices.trans (hu ▸ hn), ?_, ?_⟩
  · rw [hdelivery]
    exact PerPort.ext_get hqueue
  · rw [hdelivery, hu, endPass_passList]
    rfl

/-- A notice that some port of its route takes is WAITING and off the stranded list, and stands where it was placed,
whether the reference stands there still or has become an offer at the end of the event (R85, R96). -/
theorem passWalk_taken (hn : s.notice i = some n) (hq : ∀ p, i ∉ s.queue p) (ho : ∀ p, n.offers.has p = false)
    (hex : ∃ p ∈ (s.cfg i).route.ports, s.eligible i n p = true)
    (hu : u = ((s.setPass rest s.delivery.passPending).placeRefs i n).endPass) :
    u.settle.stranded = s.stranded.filter (fun j => j != i) ∧
      ∃ o sh, let m : Notice := { n with state := .waiting, offers := o, shown := sh }
        u.settle.notice i = some m ∧
        (n.mode = .shared → ∀ p, (i ∈ u.settle.queue p ∨ m.offers.has p = true) ↔
          (p ∈ (s.cfg i).route.ports ∧ s.eligible i n p = true)) ∧
        (n.mode = .directed → ∀ p, (i ∈ u.settle.queue p ∨ m.offers.has p = true) ↔
          (s.cfg i).route.ports.find? (s.eligible i n) = some p) := by
  have hplaced : RefsPlaced s ((s.setPass rest s.delivery.passPending).placeRefs i n) i n := by
    obtain ⟨h1, h2, h3, h4⟩ := placeRefs_placed (s := s.setPass rest s.delivery.passPending) hn hq hex
    exact ⟨h1, h2, h3, h4⟩
  generalize (s.setPass rest s.delivery.passPending).placeRefs i n = w at hplaced hu
  obtain ⟨-, -, hnot, -⟩ := offDelivery_fields (endPass_offDelivery w)
  rw [← hu] at hnot
  have hrecord : u.notice i = some { n with state := .waiting } := by
    rw [← hplaced.record]
    simp only [State.notice, hnot]
  have hstays := settle_noticeStays u i
  obtain ⟨o, sh, hm⟩ := hstays.record _ hrecord
  have hplace (p : Port) : (i ∈ u.settle.queue p ∨ o.has p = true) ↔ i ∈ w.queue p := by
    have hp := hstays.placed p
    rw [Bool.eq_iff_iff, placedAt_iff hm, placedAt_iff hrecord, hu, endPass_queue] at hp
    rw [← hu] at hp
    simpa [ho p] using hp
  refine ⟨?_, o, sh, hm, fun hmode p => (hplace p).trans (hplaced.shared hmode p),
    fun hmode p => (hplace p).trans (hplaced.directed hmode p)⟩
  rw [settle_stranded, ← hplaced.stranded]
  simp only [State.stranded, hnot]

/-- Settles O20: the head of the pass list is placed where R84 and R85 say, and the transmitters' choice leaves it in
its places. -/
theorem passWalksTheOldestStrandedNotice : Obligations.PassWalksTheOldestStrandedNotice := by
  unfold Obligations.PassWalksTheOldestStrandedNotice
  intro s i rest n takes hs htakes hl hi hn hst hq ho _
  obtain rfl : takes = s.eligible i n := funext fun p => by rw [Bool.eq_iff_iff, htakes, eligible_iff]
  have hrun : exec .passWalk s = .next s.passStep.settle := by
    show Host.Outcome.next _ = _
    rw [hl]
  generalize hu : ((s.setPass rest s.delivery.passPending).placeRefs i n).endPass = u
  have hstep : PassStepped s u i := hu ▸ passStepped s rest _ i n
  rw [passStep_stranded hl hi hn hst, hu] at hrun
  refine ⟨u.settle, hrun, hstep.touches.touchesOnly hs hstep.offers, settle_linksKept_of_engines hs hstep.engines,
    (settle_sources u).trans hstep.sources, (settle_bus u).trans hstep.bus, fun hnone => ?_, fun hex => ?_⟩
  · obtain ⟨hnotices, hqueues, hpass⟩ := passWalk_notTaken hs hnone hu.symm
    refine ⟨hnotices, hqueues, fun hne => ?_, fun hempty => ?_⟩
    · rw [hpass, if_neg fun h => hne h.1]
    · simp only [hpass, hempty, true_and]
  · obtain ⟨hstranded, o, sh, hm, hshared, hdirected⟩ :=
      passWalk_taken hn hq (fun p => by rw [ho, PortSet.has_empty]) hex hu.symm
    exact ⟨hstranded, _, hm, rfl, rfl, rfl, rfl, hshared, hdirected⟩

end Sys2Proof.Machine

/-! SUPPORT. How an accepted PORT write that leaves Enabled and the link rate runs, and what it leaves where it evicts
nothing. -/

namespace Sys2Proof.Machine

variable {s t u : State} {c : Instr} {p q : Port} {f : Frame} {rest : List Frame} {index : Byte} {content : List Byte}
  {new : PortCfg}

/-! ### How a PORT write runs (R174, R176) -/

/-- The rows of a PORT write from p (log 21). -/
def portRows (p : Port) : List Instr :=
  [.portEnable p, .portDisable p, .backlogLimitRaise p, .backlogLimitLower p, .linkRateWrite p, .writePortEntry p]

theorem applyWrite_port (s : State) (p : Port) (h : f.byte 0 = 4) : s.applyWrite p f =
    (Port.ofCode (f.byte 1).toNat).bind (fun q => (decodePort f.content).map (s.writePort p q)) := by
  unfold State.applyWrite
  rw [h]
  rfl

theorem portOfCode_index (q : Port) : Port.ofCode q.index = some q := by cases q <;> rfl

theorem exec_port_write (hc : c ∈ portRows p) (hfits : c.fits s f = true) (hw : WriteTaken s p f rest 4 index content)
    (hq : index.toNat = q.index) (hnew : decodePort content = some new) :
    exec c s = .next (((s.popped p rest).writePort p q new).respondIfOn p (writeOk 4 index)).settle := by
  obtain ⟨htable, hindex, hcontent⟩ := hw.bytes
  have happly : (s.popped p rest).applyWrite p f = some ((s.popped p rest).writePort p q new) := by
    rw [applyWrite_port _ p htable, hcontent, hnew, hindex, hq, portOfCode_index]
    rfl
  simp only [portRows, List.mem_cons, List.not_mem_nil, or_false] at hc
  rcases hc with rfl | rfl | rfl | rfl | rfl | rfl
  all_goals exact congrArg Host.Outcome.next (execWrite_taken hw hfits happly)

/-- A write that leaves Enabled and the link rate puts the limit in force and then the entry, with one trigger where the
class filter or the limit has changed (R89). -/
theorem writePort_inPlace (he : new.enabled = (s.portCfg q).enabled) (hr : new.rate = (s.portCfg q).rate) :
    s.writePort p q new =
      ((if (s.portCfg q).backlog = new.backlog then s else s.setBacklog q new.backlog).setPortCfg q new).triggerIf
        ((s.portCfg q).classFilter != new.classFilter || (s.portCfg q).backlog != new.backlog) := by
  unfold State.writePort
  simp [he, hr]

/-- A PORT write that only puts its entry in force, with or without a trigger, answers as `State.reply` says. -/
theorem entry_write_replies {r : Response} (hs : Settled s) (hon : (s.eng p).state ≠ .disabled) (trigger : Bool) :
    ((((s.popped p rest).setPortCfg q new).triggerIf trigger).respondIfOn p r).settle =
      ((s.setPortCfg q new).triggerIf trigger).reply p { s.eng p with requests := rest } r := by
  generalize hu : (s.setPortCfg q new).triggerIf trigger = u
  obtain ⟨hst, -, hn, -, he, -⟩ := offDelivery_fields (triggerIf_offDelivery (s.setPortCfg q new) trigger)
  rw [hu] at hst hn he
  have heng : u.eng p = s.eng p := by
    simp only [State.eng, he]
    rfl
  have hqueue (r : Port) : u.queue r = s.queue r := by
    rw [← hu, triggerIf_queue]
    rfl
  have hcomm : ((s.popped p rest).setPortCfg q new).triggerIf trigger = u.popped p rest := by
    unfold State.popped
    rw [heng, ← hu]
    unfold State.triggerIf
    split
    · exact triggerPass_setEng (s.setPortCfg q new) p _
    · rfl
  rw [hcomm, ← heng]
  exact popped_replies (hs.congr hst hn hqueue he) (heng ▸ hon)

/-! ### A limit that the queue is below (R80, R81) -/

theorem setPortCfg_setPortCfg (s : State) (q : Port) (a b : PortCfg) :
    (s.setPortCfg q a).setPortCfg q b = s.setPortCfg q b := by
  cases q <;> rfl

/-- Where no condition becomes present, nothing latches. -/
theorem latchRisen_of_notRisen (h : ∀ p, risen s t p = 0) : State.latchRisen s t = t := by
  have hlatched : PerPort.build (fun p => t.latched p ||| risen s t p) = t.attention.latched :=
    PerPort.ext_get fun p => by
      rw [PerPort.get_build, h]
      exact BitVec.or_zero
  have hsignalled : PerPort.build (fun p => t.signalled p &&& ~~~(risen s t p)) = t.attention.signalled :=
    PerPort.ext_get fun p => by
      rw [PerPort.get_build, h]
      exact BitVec.and_allOnes
  unfold State.latchRisen
  rw [hlatched, hsignalled]

/-- Of the conditions, only BACKLOG rests on a PORT entry (R163). -/
theorem risen_setPortCfg (h : (s.setPortCfg q new).backlogged p = true → s.backlogged p = true) :
    risen s (s.setPortCfg q new) p = 0 := by
  have hunreachable : (s.setPortCfg q new).anyUnreachable = s.anyUnreachable := rfl
  unfold risen State.present
  rw [hunreachable, State.stranded_setPortCfg, State.bus_setPortCfg]
  show byteOf (_ + 16 * boolNat s.config.storeBlank + 32 * boolNat s.config.storeFault) &&& _ = 0
  generalize (s.setPortCfg q new).backlogged p = b', (!s.stranded.isEmpty) = a, s.backlogged p = b,
    s.anyUnreachable = c, s.bus.suspended = d, s.config.storeBlank = e, s.config.storeFault = f at h ⊢
  revert a b c d e f b'
  decide

/-- A limit above the length of the queue evicts nothing, and BACKLOG is not present under it. -/
theorem setBacklog_roomy {limit : Byte} (h : (s.queue q).length < limit.toNat) :
    s.setBacklog q limit = s.setPortCfg q { s.portCfg q with backlog := limit } := by
  have hnot (r : Port) (hr : (s.setPortCfg q { s.portCfg q with backlog := limit }).backlogged r = true) :
      s.backlogged r = true := by
    unfold State.backlogged State.backlogLimit at hr ⊢
    rw [State.queue_setPortCfg, State.portCfg_setPortCfg] at hr
    by_cases hqr : q = r
    · subst hqr
      simp only [if_true, beq_iff_eq] at hr
      omega
    · rwa [if_neg hqr] at hr
  unfold State.setBacklog
  dsimp only
  rw [List.drop_eq_nil_of_le h.le, List.take_of_length_le h.le, List.foldl_nil,
    show ((s.setPortCfg q { s.portCfg q with backlog := limit }).setQueue q (s.queue q)) = _ from
      State.setQueue_queue (s.setPortCfg q { s.portCfg q with backlog := limit }) q]
  exact latchRisen_of_notRisen fun r => risen_setPortCfg (hnot r)

/-- A new limit above the length of the queue moves no reference and triggers a pass (R80, R89). -/
theorem writePort_roomy (he : new.enabled = (s.portCfg q).enabled) (hr : new.rate = (s.portCfg q).rate)
    (hb : (s.portCfg q).backlog ≠ new.backlog) (hroom : (s.queue q).length < new.backlog.toNat) :
    s.writePort p q new = (s.setPortCfg q new).triggerIf true := by
  rw [writePort_inPlace he hr, if_neg hb, setBacklog_roomy hroom, setPortCfg_setPortCfg,
    bne_iff_ne.mpr hb, Bool.or_true]

theorem exec_port_roomy (hs : Settled s) (hc : c ∈ portRows p) (hfits : c.fits s f = true)
    (hw : WriteTaken s p f rest 4 index content) (hq : index.toNat = q.index) (hnew : decodePort content = some new)
    (he : new.enabled = (s.portCfg q).enabled) (hr : new.rate = (s.portCfg q).rate)
    (hb : (s.portCfg q).backlog ≠ new.backlog) (hroom : (s.queue q).length < new.backlog.toNat) :
    exec c s = .next ((s.setPortCfg q new).triggerPass.reply p { s.eng p with requests := rest }
      (writeOk 4 index)) := by
  rw [exec_port_write hc hfits hw hq hnew, writePort_roomy (s := s.popped p rest) he hr hb hroom,
    entry_write_replies hs hw.portOn]
  rfl

/-- A write of the other fields puts them in force, and a changed class filter triggers a pass (R82, R89). -/
theorem exec_port_sameLimit (hs : Settled s) (hc : c ∈ portRows p) (hfits : c.fits s f = true)
    (hw : WriteTaken s p f rest 4 index content) (hq : index.toNat = q.index) (hnew : decodePort content = some new)
    (he : new.enabled = (s.portCfg q).enabled) (hr : new.rate = (s.portCfg q).rate)
    (hb : new.backlog = (s.portCfg q).backlog) :
    exec c s = .next ((if new.classFilter = (s.portCfg q).classFilter then s.setPortCfg q new
      else (s.setPortCfg q new).triggerPass).reply p { s.eng p with requests := rest } (writeOk 4 index)) := by
  have hwrite : (s.popped p rest).writePort p q new =
      ((s.popped p rest).setPortCfg q new).triggerIf ((s.portCfg q).classFilter != new.classFilter) := by
    have hsame : ((s.popped p rest).portCfg q).backlog = new.backlog := hb.symm
    rw [writePort_inPlace (s := s.popped p rest) he hr, if_pos hsame, hsame, bne_self_eq_false, Bool.or_false]
    rfl
  have htrigger : (s.setPortCfg q new).triggerIf ((s.portCfg q).classFilter != new.classFilter) =
      if new.classFilter = (s.portCfg q).classFilter then s.setPortCfg q new
      else (s.setPortCfg q new).triggerPass := by
    unfold State.triggerIf
    by_cases h : new.classFilter = (s.portCfg q).classFilter
    · simp [h]
    · simp [h, Ne.symm h]
  rw [exec_port_write hc hfits hw hq hnew, hwrite, entry_write_replies hs hw.portOn, htrigger]

end Sys2Proof.Machine

/-! SUPPORT. The evictions of a lowered backlog limit (R81). -/

namespace Sys2Proof.Machine

variable {s t u w : State} {i : Src} {n m : Notice} {p q : Port} {l : List Src}

/-! ### Walks that skip a port -/

/-- A walk gives no reference at a port that the notice has tried (R84). -/
theorem eligible_of_tried (h : n.tried.has q = true) (s : State) (i : Src) : s.eligible i n q = false := by
  unfold State.eligible
  simp [h]

theorem placeRefs_queue_of_tried (h : n.tried.has q = true) (s : State) (i : Src) :
    (s.placeRefs i n).queue q = s.queue q := by
  have hne {t : State} {p : Port} (he : t.eligible i n p = true) : p ≠ q := by
    rintro rfl
    rw [eligible_of_tried h] at he
    cases he
  unfold State.placeRefs
  split
  · split
    · rename_i p hf
      rw [giveRef_queue, if_neg (hne (List.find?_some hf))]
    · rfl
  · refine foldl_keeps (fun t => t.queue q) _ (fun t p => ?_) _ s
    split
    · rename_i he
      rw [giveRef_queue, if_neg (hne he)]
    · rfl

theorem walkIfBare_queue_tried (h : ∀ n, s.notice i = some n → n.tried.has q = true) :
    (s.walkIfBare i).queue q = s.queue q := by
  have hstrand (t : State) : (t.strand i).queue q = t.queue q := modNotice_queue t i _ q
  unfold State.walkIfBare State.walk
  split
  · rfl
  · split
    · rfl
    · rename_i n hn
      dsimp only
      split
      · exact placeRefs_queue_of_tried (h n hn) s i
      · rw [hstrand]
        exact placeRefs_queue_of_tried (h n hn) s i

/-- Only a notice that stands nowhere gains a reference. -/
theorem walkIfBare_queue_gains (s : State) (i : Src) (p : Port) : (s.walkIfBare i).queue p = s.queue p ∨
    (s.placedAt i p = false ∧ ((s.walkIfBare i).queue p).Perm (i :: s.queue p)) := by
  by_cases hb : s.hasPlace i = true
  · left
    unfold State.walkIfBare
    rw [if_pos hb]
  · refine ((walkIfBare_walkStep s i).queue p).imp_right fun h => ⟨?_, h.2⟩
    by_contra hp
    exact hb ((hasPlace_iff_placedAt s i).mpr ⟨p, by simpa using hp⟩)

/-! ### Rounds over several notices -/

/-- Rounds that each concern one notice leave the record and the places of any other. -/
theorem rounds_others {op : State → Src → State} (hop : ∀ t j, SourceStep t (op t j) j) (hi : i ∉ l) (s : State) :
    (l.foldl op s).notice i = s.notice i ∧ NoticeStays s (l.foldl op s) i := by
  induction l generalizing s with
  | nil => exact ⟨rfl, .of_eq rfl rfl (fun _ => rfl) i⟩
  | cons j l ih =>
    obtain ⟨hij, hi⟩ := List.ne_and_not_mem_of_not_mem_cons hi
    obtain ⟨hn, hstays⟩ := ih hi (op s j)
    exact ⟨hn.trans ((hop s j).notices i hij), ((hop s j).noticeStays hij).trans hstays⟩

/-- What rounds over some notices have added to a queue: each reference once, of notices that had no place there. -/
theorem rounds_queue {op : State → Src → State} (hop : ∀ t j, SourceStep t (op t j) j)
    (hgain : ∀ t j, (op t j).queue p = t.queue p ∨
      (t.placedAt j p = false ∧ ((op t j).queue p).Perm (j :: t.queue p))) (hl : l.Nodup) (s : State) :
    ∃ added : List Src, ((l.foldl op s).queue p).Perm (added ++ s.queue p) ∧ added.Nodup ∧
      ∀ j ∈ added, j ∈ l ∧ s.placedAt j p = false := by
  induction l generalizing s with
  | nil => exact ⟨[], .refl _, List.nodup_nil, nofun⟩
  | cons i l ih =>
    obtain ⟨hil, hl⟩ := List.nodup_cons.mp hl
    obtain ⟨added, hperm, hnodup, hadded⟩ := ih hl (op s i)
    have hold (j : Src) (hj : j ∈ added) : j ∈ i :: l ∧ s.placedAt j p = false := by
      obtain ⟨hjl, hjp⟩ := hadded j hj
      exact ⟨List.mem_cons_of_mem i hjl, ((hop s i).noticeStays fun h => hil (h ▸ hjl)).placed p ▸ hjp⟩
    rcases hgain s i with hsame | ⟨hbare, hgained⟩
    · exact ⟨added, hsame ▸ hperm, hnodup, hold⟩
    · refine ⟨i :: added, (hperm.trans (hgained.append_left added)).trans List.perm_middle,
        List.nodup_cons.mpr ⟨fun h => hil (hadded i h).1, hnodup⟩, fun j hj => ?_⟩
      rcases List.mem_cons.mp hj with rfl | hj
      · exact ⟨List.mem_cons_self, hbare⟩
      · exact hold j hj

/-! ### One eviction -/

/-- The notice of i, whose reference has left q's queue, is handled (R81). -/
def State.evict (s : State) (q : Port) (i : Src) : State := (s.addTried q i).walkIfBare i

theorem addTried_notice (hn : s.notice i = some n) (q : Port) :
    (s.addTried q i).notice i = some { n with tried := n.tried.insert q } := modNotice_some hn _

theorem addTried_walkStep (s : State) (q : Port) (i : Src) : WalkStep s (s.addTried q i) i :=
  modNotice_walkStep s i fun n => ⟨n.state, n.tried.insert q, rfl⟩

theorem addTried_placedAt (s : State) (q : Port) (i : Src) (p : Port) :
    (s.addTried q i).placedAt i p = s.placedAt i p := by
  unfold State.placedAt State.addTried
  rw [modNotice_queue, modNotice_notice, if_pos rfl]
  cases s.notice i <;> rfl

theorem addTried_hasPlace (s : State) (q : Port) (i : Src) : (s.addTried q i).hasPlace i = s.hasPlace i := by
  rw [Bool.eq_iff_iff, hasPlace_iff_placedAt, hasPlace_iff_placedAt]
  simp only [addTried_placedAt]

theorem evict_walkStep (s : State) (q : Port) (i : Src) : WalkStep s (s.evict q i) i :=
  (addTried_walkStep s q i).trans (walkIfBare_walkStep _ i)

theorem evict_sourceStep (q : Port) (s : State) (i : Src) : SourceStep s (s.evict q i) i :=
  (evict_walkStep s q i).sourceStep

/-- An evicted notice does not come back to the port that let it go. -/
theorem evict_queue (s : State) (q : Port) (i : Src) : (s.evict q i).queue q = s.queue q := by
  refine (walkIfBare_queue_tried fun m hm => ?_).trans (modNotice_queue s i _ q)
  rw [State.addTried, modNotice_notice, if_pos rfl] at hm
  obtain ⟨n, -, rfl⟩ := Option.map_eq_some_iff.mp hm
  simp

theorem evict_queue_gains (s : State) (q : Port) (i : Src) (p : Port) : (s.evict q i).queue p = s.queue p ∨
    (s.placedAt i p = false ∧ ((s.evict q i).queue p).Perm (i :: s.queue p)) := by
  have h := walkIfBare_queue_gains (s.addTried q i) i p
  rwa [addTried_placedAt, show (s.addTried q i).queue p = s.queue p from modNotice_queue s i _ p] at h

/-- A walk past q leaves a notice that q has let go. -/
theorem Walked.letGo {tried : PortSet} {len : Port → Nat} (h : Walked s t i tried len m)
    (hq : tried.has q = true) : t.letGo q i m := by
  obtain ⟨hnone, hsome⟩ := h
  by_cases hex : ∃ p ∈ (s.cfg i).route.ports, s.takes m.cls tried len p = true
  · obtain ⟨hwaiting, htried, -⟩ := hsome hex
    exact .inl ⟨hwaiting, htried ▸ hq⟩
  · obtain ⟨hst, hempty, hlisted, -⟩ := hnone fun p hp => by
      by_contra htakes
      exact hex ⟨p, hp, by simpa using htakes⟩
    exact .inr ⟨hst, hempty, hlisted⟩

/-- A notice evicted from q waits on at its other ports, or has been walked with q skipped as tried. -/
theorem evict_leaves (hn : s.notice i = some n) (hw : n.state = .waiting) (q : Port) :
    ∃ m, (s.evict q i).notice i = some m ∧ m.mark = n.mark ∧ (s.evict q i).letGo q i m ∧
      (s.hasPlace i = false → Walked s (s.evict q i) i (n.tried.insert q) (fun r => (s.queue r).length) m) := by
  have htried : (n.tried.insert q).has q = true := by simp
  have hadd := addTried_notice hn q
  unfold State.evict State.walkIfBare
  rw [addTried_hasPlace]
  cases hb : s.hasPlace i with
  | true => exact ⟨_, hadd, rfl, .inl ⟨hw, htried⟩, nofun⟩
  | false =>
    obtain ⟨m, hm, hmeq, hwalked⟩ := walk_walked hadd hw ((addTried_hasPlace s q i).trans hb)
    obtain ⟨-, -, -, -, he, hc, -⟩ := offNotices_fields (addTried_walkStep s q i).rest
    have hqueue (r : Port) : (s.addTried q i).queue r = s.queue r := modNotice_queue s i _ r
    simp only [hqueue] at hwalked
    have hfroms : Walked s ((s.addTried q i).walk i) i (n.tried.insert q) (fun r => (s.queue r).length) m := by
      unfold Walked at hwalked ⊢
      rwa [takes_congr hc fun p => by simp only [State.eng, he], show (s.addTried q i).cfg i = s.cfg i by
        simp only [State.cfg, hc]] at hwalked
    refine ⟨m, hm, by rw [hmeq], hfroms.letGo htried, fun _ => hfroms⟩

/-! ### All evictions of a write -/

/-- The state from which the evictions of a new limit start: the limit is in force, and the references beyond it have
left the queue (R81). -/
def State.cutQueue (s : State) (q : Port) (limit : Byte) : State :=
  State.latchRisen s ((s.setPortCfg q { s.portCfg q with backlog := limit }).setQueue q
    ((s.queue q).take limit.toNat))

theorem setBacklog_eq (s : State) (q : Port) (limit : Byte) : s.setBacklog q limit =
    ((s.queue q).drop limit.toNat).foldl (fun u i => u.evict q i) (s.cutQueue q limit) := rfl

theorem evictions_offNotices (q : Port) (l : List Src) (s : State) :
    (l.foldl (fun u i => u.evict q i) s).offNotices = s.offNotices :=
  foldl_keeps State.offNotices _ (fun t i => (evict_walkStep t q i).rest) l s

theorem evictions_latchedKept (q : Port) (l : List Src) (s : State) :
    LatchedKept s (l.foldl (fun u i => u.evict q i) s) :=
  NoticeInvariant.foldl (P := LatchedKept s) (fun t i h => h.trans (evict_walkStep t q i).latched) l (.of_attention rfl)

theorem evictions_offerCount (q r : Port) (l : List Src) (s : State) :
    s.offerCount r ≤ (l.foldl (fun u i => u.evict q i) s).offerCount r :=
  NoticeInvariant.foldl (P := fun t => s.offerCount r ≤ t.offerCount r)
    (fun t i h => h.trans ((evict_walkStep t q i).offerCount_le r)) l le_rfl

/-- What p has let go stays let go while the notice stays in its places. -/
theorem letGo_of_stays {o : PortSet} {sh : Bool} (h : s.letGo q i m) (hs : NoticeStays s t i) :
    t.letGo q i { m with offers := o, shown := sh } :=
  h.imp id fun ⟨hst, hempty, hlisted⟩ => ⟨hst, hempty, hs.stranded hlisted⟩

/-- An evicted notice in its turn: s is the state from which the evictions start, and t one in which every notice has
stayed as the evictions left it. -/
theorem eviction_turn (hl : l.Nodup) (hi : i ∈ l) (hn : s.notice i = some n) (hw : n.state = .waiting)
    (hstays : ∀ j, NoticeStays (l.foldl (fun u j => u.evict q j) s) t j) :
    ∃ m, t.notice i = some m ∧ m.mark = n.mark ∧ t.letGo q i m ∧ (s.hasPlace i = false →
      ∃ len : Port → Nat, Walked s t i (n.tried.insert q) len m ∧
        ∀ r, (s.queue r).length ≤ len r ∧ len r ≤ (s.queue r).length + newcomers s t i r) := by
  obtain ⟨l₁, l₂, rfl⟩ := List.append_of_mem hi
  obtain ⟨hl₁, hil₂, hdisj⟩ := List.nodup_append.mp hl
  have hil₁ : i ∉ l₁ := fun h => hdisj i h i List.mem_cons_self rfl
  have hil₂ := (List.nodup_cons.mp hil₂).1
  obtain ⟨hwn, hwstays⟩ := rounds_others (evict_sourceStep q) hil₁ s
  have hadd := fun r => rounds_queue (p := r) (evict_sourceStep q) (fun u j => evict_queue_gains u q j r) hl₁ s
  obtain ⟨-, -, -, -, he, hc, -⟩ := offNotices_fields (evictions_offNotices q l₁ s)
  simp only [List.foldl_append] at hstays
  generalize l₁.foldl (fun u j => u.evict q j) s = w at hwn hwstays hadd he hc hstays
  have hafter (j : Src) (hj : j ∉ i :: l₂) : NoticeStays w t j :=
    (rounds_others (evict_sourceStep q) hj w).2.trans (hstays j)
  have hown : NoticeStays (w.evict q i) t i :=
    (rounds_others (evict_sourceStep q) hil₂ (w.evict q i)).2.trans (hstays i)
  obtain ⟨m, hm, hmark, hgone, hwalked⟩ := evict_leaves (hwn.trans hn) hw q
  obtain ⟨o, sh, ht⟩ := hown.record m hm
  refine ⟨_, ht, hmark, letGo_of_stays hgone hown, fun hbare => ⟨fun r => (w.queue r).length, ?_, fun r => ?_⟩⟩
  · have hwbare : w.hasPlace i = false := by
      rw [← hbare, Bool.eq_iff_iff, hasPlace_iff_placedAt, hasPlace_iff_placedAt]
      simp only [hwstays.placed]
    exact (hwalked hwbare).of_stays hc (fun r => by simp only [State.eng, he]) hm ht hown.stranded hown.placed
  · obtain ⟨added, hperm, hnodup, hadded⟩ := hadd r
    have hcome : added.length ≤ newcomers s t i r := length_le_newcomers hnodup fun j hj => by
      obtain ⟨hjl, hjs⟩ := hadded j hj
      refine ⟨fun h => hil₁ (h ▸ hjl), ?_, hjs⟩
      rw [(hafter j fun h => hdisj j hjl j h rfl).placed r]
      simp [State.placedAt, hperm.mem_iff, hj]
    have hlen := hperm.length_eq
    rw [List.length_append] at hlen
    dsimp only
    omega

/-! ### The cut that the evictions start from -/

variable {limit : Byte}

theorem cutQueue_queue (s : State) (q : Port) (limit : Byte) (r : Port) :
    (s.cutQueue q limit).queue r = if q = r then (s.queue q).take limit.toNat else s.queue r := by
  show ((s.setPortCfg q _).setQueue q _).queue r = _
  rw [State.queue_setQueue, State.queue_setPortCfg]

theorem cutQueue_portCfg (hr : r ≠ q) : (s.cutQueue q limit).portCfg r = s.portCfg r := by
  show (s.setPortCfg q _).portCfg r = _
  rw [State.portCfg_setPortCfg, if_neg (Ne.symm hr)]

theorem present_backlog (s : State) (p : Port) : (s.present p).getLsbD 1 = s.backlogged p := by
  unfold State.present
  generalize (!s.stranded.isEmpty) = a, s.backlogged p = b, s.anyUnreachable = c, s.bus.suspended = d,
    s.config.storeBlank = e, s.config.storeFault = f
  revert a b c d e f
  decide

/-- A queue that was below its limit and that a new limit cuts latches BACKLOG (R81, R163, R165). -/
theorem cutQueue_backlog (hbelow : (s.queue q).length < (s.portCfg q).backlog.toNat)
    (hfull : limit.toNat ≤ (s.queue q).length) : ((s.cutQueue q limit).latched q).getLsbD 1 = true := by
  have hwas : s.backlogged q = false := by
    unfold State.backlogged State.backlogLimit
    rw [beq_eq_false_iff_ne]
    omega
  have hnow : ((s.setPortCfg q { s.portCfg q with backlog := limit }).setQueue q
      ((s.queue q).take limit.toNat)).backlogged q = true := by
    unfold State.backlogged State.backlogLimit
    rw [State.queue_setQueue, if_pos rfl, State.portCfg_setQueue, State.portCfg_setPortCfg, if_pos rfl, beq_iff_eq,
      List.length_take_of_le hfull]
  unfold State.cutQueue
  rw [latchRisen_latched, BitVec.getLsbD_or, risen, BitVec.getLsbD_and, BitVec.getLsbD_not, present_backlog,
    present_backlog, hnow, hwas]
  simp

/-- The newcomers of a port are those of any two states between which its queue, the records and the rest stand. -/
theorem newcomers_congr {s' : State} (hn : ∀ j, s'.notice j = s.notice j) (hq : s'.queue p = s.queue p) :
    newcomers s' t i p = newcomers s t i p := by
  simp only [newcomers, State.placedAt, hn, hq]

/-- Queue lengths that count at q what stood there before a cut, less the notice of i. -/
def State.uncutLengths (s : State) (q : Port) (i : Src) (len : Port → Nat) (r : Port) : Nat :=
  if r = q then ((s.queue q).filter (fun j => j != i)).length else len r

/-- A walk that skips q takes a port by the entries and queues of any other port alone. -/
theorem cutQueue_takes {tried : PortSet} (htried : tried.has q = true) (cls : Fin 8) (len : Port → Nat) :
    (s.cutQueue q limit).takes cls tried len = s.takes cls tried (s.uncutLengths q i len) := by
  funext r
  unfold State.takes State.uncutLengths
  by_cases hr : r = q
  · subst hr
    simp [htried]
  · rw [cutQueue_portCfg hr, if_neg hr]
    rfl

/-- A walk past q, on queues that a new limit has cut at q, is a walk past q on the queues before it. -/
theorem walkedAmong_of_cut {tried : PortSet} {len : Port → Nat}
    (h : Walked (s.cutQueue q limit) t i tried len m) (htried : tried.has q = true)
    (hqueue : ∀ r, r ≠ q → i ∉ s.queue r)
    (hlen : ∀ r, ((s.cutQueue q limit).queue r).length ≤ len r ∧
      len r ≤ ((s.cutQueue q limit).queue r).length + newcomers (s.cutQueue q limit) t i r) :
    WalkedAmong s t i tried m := by
  refine ⟨s.uncutLengths q i len, ?_, fun r => ?_⟩
  · unfold Walked at h ⊢
    rwa [cutQueue_takes htried] at h
  · unfold State.uncutLengths
    by_cases hr : r = q
    · subst hr
      simp
    · have hrq : (s.cutQueue q limit).queue r = s.queue r := by rw [cutQueue_queue, if_neg (Ne.symm hr)]
      have hrlen := hlen r
      rw [newcomers_congr (s := s) (s' := s.cutQueue q limit) (fun _ => rfl) hrq, hrq] at hrlen
      simpa only [if_neg hr, filter_ne_of_not_mem (hqueue r hr)] using hrlen

/-! ### What the evictions leave of each notice, and of the port -/

/-- A notice that a new limit evicts from q, in a state t in which every notice has stayed as the evictions left it
(R81). -/
theorem setBacklog_evicts (hnodup : (s.queue q).Nodup) (hi : i ∈ (s.queue q).drop limit.toNat)
    (hn : s.notice i = some n) (hw : n.state = .waiting) (hstays : ∀ j, NoticeStays (s.setBacklog q limit) t j) :
    ∃ m, t.notice i = some m ∧ m.mark = n.mark ∧ t.letGo q i m ∧
      ((∀ r, n.offers.has r = false ∧ (r ≠ q → i ∉ s.queue r)) → WalkedAmong s t i (n.tried.insert q) m) := by
  rw [setBacklog_eq] at hstays
  obtain ⟨m, hm, hmark, hgone, hwalked⟩ :=
    eviction_turn (s := s.cutQueue q limit) (hnodup.sublist (List.drop_sublist _ _)) hi hn hw hstays
  refine ⟨m, hm, hmark, hgone, fun hbare => ?_⟩
  have hplace : (s.cutQueue q limit).hasPlace i = false := by
    rw [← Bool.not_eq_true, hasPlace_iff_placedAt]
    rintro ⟨r, hr⟩
    rw [placedAt_iff (s := s.cutQueue q limit) hn, (hbare r).1, cutQueue_queue] at hr
    by_cases hqr : q = r
    · rw [if_pos hqr] at hr
      exact List.disjoint_take_drop hnodup le_rfl (hr.resolve_right nofun) hi
    · rw [if_neg hqr] at hr
      exact (hbare r).2 (Ne.symm hqr) (hr.resolve_right nofun)
  obtain ⟨len, hwalk, hlen⟩ := hwalked hplace
  exact walkedAmong_of_cut hwalk (by simp) (fun r => (hbare r).2) hlen

/-- What the evictions leave of the port itself and of what they do not concern. -/
structure LimitCut (s t : State) (q : Port) (limit : Byte) : Prop where
  stage : t.stage = s.stage
  sources : t.sources = s.sources
  bus : t.bus = s.bus
  engines : t.engines = s.engines
  queue : t.queue q = (s.queue q).take limit.toNat
  offers : ∀ p, s.offerCount p ≤ t.offerCount p
  backlog : (s.queue q).length < (s.portCfg q).backlog.toNat → limit.toNat ≤ (s.queue q).length →
    (t.latched q).getLsbD 1 = true

theorem setBacklog_cut (s : State) (q : Port) (limit : Byte) : LimitCut s (s.setBacklog q limit) q limit := by
  rw [setBacklog_eq]
  generalize (s.queue q).drop limit.toNat = l
  obtain ⟨-, hst, hsrc, hbus, he, -⟩ := offNotices_fields (evictions_offNotices q l (s.cutQueue q limit))
  refine ⟨hst, hsrc, hbus, he, ?_, fun p => evictions_offerCount q p l (s.cutQueue q limit), fun hbelow hfull =>
    (evictions_latchedKept q l _).getLsbD (cutQueue_backlog hbelow hfull)⟩
  refine (foldl_keeps (fun t => t.queue q) _ (fun t i => evict_queue t q i) l _).trans ?_
  rw [cutQueue_queue, if_pos rfl]

end Sys2Proof.Machine

/-! PORT writes that leave Enabled and the link rate (O51). -/

namespace Sys2Proof.Machine

variable {s t u : State} {i : Src} {m : Notice} {c : Instr} {p q : Port} {f : Frame} {rest : List Frame} {index : Byte}
  {content : List Byte} {new : PortCfg}

/-! ### The rest of a write that has evicted -/

/-- What puts an entry in force, triggers a pass and makes a response leaves everything else. -/
structure EntryInForce (s u : State) (q : Port) (new : PortCfg) : Prop where
  stage : u.stage = s.stage
  sources : u.sources = s.sources
  bus : u.bus = s.bus
  notices : u.notices = s.notices
  attention : u.attention = s.attention
  config : u.config = (s.setPortCfg q new).config
  queue : ∀ r, u.queue r = s.queue r
  ports : ∀ r, (u.eng r).tx = (s.eng r).tx ∧ (u.eng r).state = (s.eng r).state

theorem entryInForce (s : State) (p q : Port) (new : PortCfg) (r : Response) :
    EntryInForce s (((s.setPortCfg q new).triggerIf true).respond p r) q new := by
  obtain ⟨hst, hsrc, hn, hbus, he, ha, hc⟩ := offDelivery_fields (triggerIf_offDelivery (s.setPortCfg q new) true)
  have halike := respond_alike ((s.setPortCfg q new).triggerIf true) p r
  refine ⟨hst, hsrc, hbus, hn, ha, hc, triggerIf_queue (s.setPortCfg q new) true, fun x => ?_⟩
  obtain ⟨htx, hstate⟩ := halike.ports x
  have heng : ((s.setPortCfg q new).triggerIf true).eng x = s.eng x := by
    simp only [State.eng, he]
    rfl
  rw [htx, hstate, heng]
  exact ⟨rfl, rfl⟩

theorem EntryInForce.noticeStays (h : EntryInForce s u q new) (i : Src) : NoticeStays s u i :=
  .of_eq h.sources h.notices h.queue i

/-- The queue of a port that takes no head stands at the end of an event (R96). -/
theorem settle_queue_of_notTaken (h : s.headTaken q = none) : s.settle.queue q = s.queue q := by
  have port {t : State} {r : Port} (ht : r = q → t.headTaken r = none) : (t.settlePort r).queue q = t.queue q := by
    rw [settlePort_queue, List.filter_eq_self]
    rintro j -
    by_cases hr : r = q
    · simp [ht hr]
    · simp [hr]
  obtain ⟨hB, hC⟩ := settle_headTaken s
  unfold State.settle
  rw [port fun hr => hC.trans (hr ▸ h), port fun hr => hB.trans (hr ▸ h), port fun hr => hr ▸ h]

/-- States that differ in the bus and the engines' lists at most see the same walk. -/
theorem WalkedAmong.of_alike {s' : State} {tried : PortSet} (h : WalkedAmong s' t i tried m) (ha : Alike s s') :
    WalkedAmong s t i tried m := by
  obtain ⟨len, hwalked, hlen⟩ := h
  refine ⟨len, ?_, fun r => ?_⟩
  · unfold Walked at hwalked ⊢
    rwa [takes_congr ha.config fun r => (ha.ports r).2, ha.cfg] at hwalked
  · have hr := hlen r
    rwa [newcomers_congr ha.notice (ha.queue r), ha.queue] at hr

/-! ### A limit that the queue reaches or exceeds (R81) -/

/-- A write of a limit at or below the length of the queue, run. -/
theorem exec_port_evicts (hc : c ∈ portRows p) (hfits : c.fits s f = true)
    (hw : WriteTaken s p f rest 4 index content) (hq : index.toNat = q.index) (hnew : decodePort content = some new)
    (he : new.enabled = (s.portCfg q).enabled) (hr : new.rate = (s.portCfg q).rate)
    (hb : (s.portCfg q).backlog ≠ new.backlog) :
    exec c s = .next (((((s.popped p rest).setBacklog q new.backlog).setPortCfg q new).triggerIf true).respond p
      (writeOk 4 index)).settle := by
  have hcut := setBacklog_cut (s.popped p rest) q new.backlog
  have hwrite : (s.popped p rest).writePort p q new =
      (((s.popped p rest).setBacklog q new.backlog).setPortCfg q new).triggerIf true := by
    have hdiff : ((s.popped p rest).portCfg q).backlog ≠ new.backlog := hb
    rw [writePort_inPlace (s := s.popped p rest) he hr, if_neg hdiff, bne_iff_ne.mpr hdiff, Bool.or_true]
  rw [exec_port_write hc hfits hw hq hnew, hwrite]
  unfold State.respondIfOn
  rw [if_neg]
  obtain ⟨-, -, -, -, heng, -⟩ := offDelivery_fields
    (triggerIf_offDelivery (((s.popped p rest).setBacklog q new.backlog).setPortCfg q new) true)
  have hstate : ((s.popped p rest).eng p).state = (s.eng p).state := ((popped_alike s p rest).ports p).2
  simp only [State.eng, heng, State.engines_setPortCfg, hcut.engines] at hstate ⊢
  rw [hstate]
  exact hw.portOn

/-- The port whose queue a write has cut, after the event's end: the head-most references stand, and BACKLOG is present,
and latched where it was not present before (R81, R163, R165). -/
theorem settle_limitCut {limit : Byte} {b : State} (hs : Settled s) (hcut : LimitCut s b q limit)
    (hu : EntryInForce b u q new) (hlimit : new.backlog = limit) (hfull : limit.toNat ≤ (s.queue q).length) :
    u.settle.queue q = (s.queue q).take limit.toNat ∧ u.settle.portCfg q = new ∧
      (u.settle.present q).getLsbD 1 = true ∧
      ((s.queue q).length < (s.portCfg q).backlog.toNat → (u.settle.latched q).getLsbD 1 = true) := by
  have htaken : u.headTaken q = none := by
    by_contra hne
    obtain ⟨j, hj⟩ := Option.ne_none_iff_exists'.mp hne
    have hoffers : s.offerCount q ≤ u.offerCount q := by
      have : u.offerCount q = b.offerCount q := by simp only [State.offerCount, State.notice, hu.notices]
      exact this ▸ hcut.offers q
    have heng : b.eng q = s.eng q := by simp only [State.eng, hcut.engines]
    have hempty := headTaken_of_settled hs (hu.stage.trans hcut.stage) ((hu.ports q).1.trans (by rw [heng]))
      ((hu.ports q).2.trans (by rw [heng])) hoffers hj
    obtain ⟨rest, hq⟩ := (headTaken_some hj).2.2.1
    rw [hu.queue, hcut.queue, hempty, List.take_nil] at hq
    cases hq
  have hqueue : u.settle.queue q = (s.queue q).take limit.toNat := by
    rw [settle_queue_of_notTaken htaken, hu.queue, hcut.queue]
  have hcfg : u.settle.portCfg q = new := by
    obtain ⟨-, -, -, -, hc, -⟩ := offLinks_fields (settle_offLinks u)
    have hentry : (b.setPortCfg q new).portCfg q = new := by rw [State.portCfg_setPortCfg, if_pos rfl]
    simpa only [State.portCfg, hc, hu.config] using hentry
  refine ⟨hqueue, hcfg, ?_, fun hbelow => ?_⟩
  · rw [present_backlog, State.backlogged, State.backlogLimit, hqueue, hcfg, hlimit, beq_iff_eq,
      List.length_take_of_le hfull]
  · refine (settle_latchedKept u).getLsbD ?_
    have hlatched := hcut.backlog hbelow hfull
    simpa only [State.latched, hu.attention] using hlatched

/-- A write of a limit at or below the length of the queue evicts the tail, and OK is made. -/
theorem port_write_evicts (hs : Settled s) (hc : c ∈ portRows p) (hfits : c.fits s f = true)
    (hw : WriteTaken s p f rest 4 index content) (hq : index.toNat = q.index) (hnew : decodePort content = some new)
    (he : new.enabled = (s.portCfg q).enabled) (hr : new.rate = (s.portCfg q).rate)
    (hb : (s.portCfg q).backlog ≠ new.backlog) (hfull : new.backlog.toNat ≤ (s.queue q).length)
    (hnodup : (s.queue q).Nodup) :
    ∃ t, exec c s = .next t ∧ t.portCfg q = new ∧ t.queue q = (s.queue q).take new.backlog.toNat ∧
      (t.present q).getLsbD 1 = true ∧
      ((s.queue q).length < (s.portCfg q).backlog.toNat → (t.latched q).getLsbD 1 = true) ∧
      t.owes p (writeOk 4 index) ∧
      (∀ i ∈ (s.queue q).drop new.backlog.toNat, ∀ n, s.notice i = some n → n.state = .waiting →
        ∃ m, t.notice i = some m ∧ m.mark = n.mark ∧ t.letGo q i m ∧
          ((∀ r, n.offers.has r = false ∧ (r ≠ q → i ∉ s.queue r)) → WalkedAmong s t i (n.tried.insert q) m)) ∧
      t.sources = s.sources ∧ t.bus = s.bus := by
  have hrun := exec_port_evicts hc hfits hw hq hnew he hr hb
  have hpop := popped_alike s p rest
  have hcut := setBacklog_cut (s.popped p rest) q new.backlog
  have hevicts := fun t i n => setBacklog_evicts (s := s.popped p rest) (q := q) (limit := new.backlog) (t := t)
    (i := i) (n := n) (hpop.queue q ▸ hnodup)
  generalize (s.popped p rest).setBacklog q new.backlog = b at hrun hcut hevicts
  have hu := entryInForce b p q new (writeOk 4 index)
  have howes : writeOk 4 index ∈
      ((((b.setPortCfg q new).triggerIf true).respond p (writeOk 4 index)).eng p).responses := by
    rw [respond_eng, if_pos rfl]
    simp
  generalize ((b.setPortCfg q new).triggerIf true).respond p (writeOk 4 index) = u at hrun hu howes
  obtain ⟨hqueue, hcfg, hpresent, hlatched⟩ := settle_limitCut (popped_settled hs p rest) hcut hu rfl hfull
  refine ⟨u.settle, hrun, hcfg, hqueue, hpresent, hlatched, settle_owes howes, fun i hi n hn hwait => ?_,
    (settle_sources u).trans (hu.sources.trans hcut.sources), (settle_bus u).trans (hu.bus.trans hcut.bus)⟩
  obtain ⟨m, hm, hmark, hgone, hwalked⟩ :=
    hevicts u.settle i n hi hn hwait fun j => (hu.noticeStays j).trans (settle_noticeStays u j)
  exact ⟨m, hm, hmark, hgone, fun hbare => (hwalked hbare).of_alike hpop⟩

/-- Settles O51: a limit above the queue's length and a write of the other fields put the entry in force; a limit that
the queue reaches or exceeds evicts, and each evicted notice keeps what its turn left it. -/
theorem backlogLimitWrites : Obligations.BacklogLimitWrites := by
  unfold Obligations.BacklogLimitWrites
  intro s c p q f rest index content new hs hfits hw hq hnew he hr hbound
  have hne {a b : Byte} (h : a.toNat ≠ b.toNat) : a ≠ b := mt (congrArg BitVec.toNat) h
  refine ⟨fun hc hlt => ?_, fun hc hlt hroom => ?_, fun hc hlt hfull hnodup => ?_, fun hc hsame => ?_⟩
  · have hrow : c ∈ portRows p := by rcases hc with rfl | rfl <;> simp [portRows]
    exact exec_port_roomy hs hrow hfits hw hq hnew he hr (hne hlt.ne) (hbound.trans_lt hlt)
  · have hrow : c ∈ portRows p := by rcases hc with rfl | rfl <;> simp [portRows]
    exact exec_port_roomy hs hrow hfits hw hq hnew he hr (hne hlt.ne') hroom
  · have hrow : c ∈ portRows p := by rcases hc with rfl | rfl <;> simp [portRows]
    exact port_write_evicts hs hrow hfits hw hq hnew he hr (hne hlt.ne') hfull hnodup
  · have hrow : c ∈ portRows p := by rcases hc with rfl | rfl | rfl <;> simp [portRows]
    exact exec_port_sameLimit hs hrow hfits hw hq hnew he hr hsame

end Sys2Proof.Machine

/-! SUPPORT. What an operation must leave alone to keep the holdings of the ports (R92, R93, R116, R153), and the ways
in which an operation can be seen to do so. -/

namespace Sys2Proof.Machine

variable {s t u : State} {i : Src} {n m : Notice} {p q : Port}

/-! ### Notices that are neither offered nor claimed (R92, R116) -/

/-- What a notice is outside RUNNING: neither offered nor claimed, with no timer running. -/
def Notice.Bare (n : Notice) : Prop :=
  n.offers = PortSet.empty ∧ (∀ p, n.state ≠ .claimed p) ∧ n.offerTimers = PerPort.all none ∧ n.serviceTimer = none

def State.BareAt (s : State) (i : Src) : Prop := ∀ n, s.notice i = some n → n.Bare

theorem Notice.Bare.not_offered (h : n.Bare) (p : Port) : n.offers.has p = false := by
  rw [h.1, PortSet.has_empty]

/-- The record m gives no port an offer or a claim that the record n does not give it, and no timer to a bare n. -/
structure Notice.HoldsLess (m n : Notice) : Prop where
  offers : ∀ p, m.offers.has p = true → n.offers.has p = true
  claim : ∀ p, m.state = .claimed p → n.state = .claimed p
  bare : n.Bare → m.Bare

theorem Notice.HoldsLess.refl (n : Notice) : n.HoldsLess n := ⟨fun _ => id, fun _ => id, id⟩

/-- A notice that is WAITING or STRANDED in place of its former state. -/
theorem holdsLess_of_freed (hs : ∀ p, m.state ≠ .claimed p) (ho : m.offers = n.offers)
    (ht : m.offerTimers = n.offerTimers) (hv : m.serviceTimer = n.serviceTimer) : m.HoldsLess n where
  offers _ h := ho ▸ h
  claim p h := absurd h (hs p)
  bare h := ⟨ho.trans h.1, hs, ht.trans h.2.2.1, hv.trans h.2.2.2⟩

/-- Every record of t is bare, or holds less than the one of s. -/
def RecordsHoldLess (s t : State) : Prop :=
  ∀ j m, t.notice j = some m → m.Bare ∨ ∃ n, s.notice j = some n ∧ m.HoldsLess n

theorem RecordsHoldLess.of_eq (h : ∀ j, t.notice j = s.notice j) : RecordsHoldLess s t := fun j m hm =>
  .inr ⟨m, h j ▸ hm, .refl m⟩

theorem RecordsHoldLess.trans (h : RecordsHoldLess s t) (k : RecordsHoldLess t u) : RecordsHoldLess s u :=
  fun j m hm => by
    rcases k j m hm with hb | ⟨n, hn, hmn⟩
    · exact .inl hb
    · rcases h j n hn with hb | ⟨o, ho, hno⟩
      · exact .inl (hmn.bare hb)
      · exact .inr ⟨o, ho, fun p hp => hno.offers p (hmn.offers p hp), fun p hp => hno.claim p (hmn.claim p hp),
          fun hb => hmn.bare (hno.bare hb)⟩

theorem RecordsHoldLess.offered (h : RecordsHoldLess s t) {j : Src} (hm : t.notice j = some m)
    (ho : m.offers.has p = true) : ∃ n, s.notice j = some n ∧ n.offers.has p = true := by
  rcases h j m hm with hb | ⟨n, hn, hl⟩
  · rw [hb.not_offered p] at ho
    cases ho
  · exact ⟨n, hn, hl.offers p ho⟩

theorem RecordsHoldLess.claimed (h : RecordsHoldLess s t) {j : Src} (hm : t.notice j = some m)
    (hc : m.state = .claimed p) : ∃ n, s.notice j = some n ∧ n.state = .claimed p := by
  rcases h j m hm with hb | ⟨n, hn, hl⟩
  · exact absurd hc (hb.2.1 p)
  · exact ⟨n, hn, hl.claim p hc⟩

theorem RecordsHoldLess.bareAt (h : RecordsHoldLess s t) {j : Src} (hb : s.BareAt j) : t.BareAt j := fun m hm => by
  rcases h j m hm with hb' | ⟨n, hn, hl⟩
  · exact hb'
  · exact hl.bare (hb n hn)

/-! ### The relation -/

/-- Between s and t no port has changed its state, no port that is neither ATTACHED nor HELD has come to hold anything,
no port has exceeded its window, and outside RUNNING no bare notice has been offered or claimed. -/
structure NoNewHoldings (s t : State) : Prop where
  booting : t.stage = .booting ↔ s.stage = .booting
  running : s.stage = .running → t.stage = .running
  state : ∀ p, (t.eng p).state = (s.eng p).state
  enabled : ∀ p, (t.portCfg p).enabled = (s.portCfg p).enabled
  window : ∀ p, s.offerCount p ≤ (s.eng p).state.window → t.offerCount p ≤ (s.eng p).state.window
  nothing : ∀ p, (s.eng p).state.isOn = false → HoldsNothing s p → HoldsNothing t p
  bare : t.stage ≠ .running → ∀ j, s.BareAt j → t.BareAt j

theorem NoNewHoldings.refl (s : State) : NoNewHoldings s s :=
  ⟨Iff.rfl, id, fun _ => rfl, fun _ => rfl, fun _ => id, fun _ _ => id, fun _ _ => id⟩

theorem NoNewHoldings.trans (h : NoNewHoldings s t) (k : NoNewHoldings t u) : NoNewHoldings s u where
  booting := k.booting.trans h.booting
  running hr := k.running (h.running hr)
  state p := (k.state p).trans (h.state p)
  enabled p := (k.enabled p).trans (h.enabled p)
  window p hw := h.state p ▸ k.window p (by rw [h.state p]; exact h.window p hw)
  nothing p hoff hs := k.nothing p (by rw [h.state p]; exact hoff) (h.nothing p hoff hs)
  bare hu j hj := k.bare hu j (h.bare (fun ht => hu (k.running ht)) j hj)

theorem NoNewHoldings.foldl {α : Type} {op : State → α → State} (hop : ∀ t x, NoNewHoldings t (op t x)) (l : List α)
    (s : State) : NoNewHoldings s (l.foldl op s) :=
  NoticeInvariant.foldl (P := NoNewHoldings s) (fun t x h => h.trans (hop t x)) l (.refl s)

/-! ### Operations that leave what the holdings rest on -/

/-- What of a record the holdings of ports rest on. -/
def Notice.holding (n : Notice) : NoticeState × PortSet × PerPort (Option Nat) × Option Nat :=
  (n.state, n.offers, n.offerTimers, n.serviceTimer)

/-- What the holdings of ports rest on. -/
structure Holdings where
  stage : Stage
  state : Port → PortState
  withdrawals : Port → List Withdrawal
  enabled : Port → Bool
  queue : Port → List Src
  polled : Port → Bool
  right : Option Port
  store : StoreState
  record : Src → Option (NoticeState × PortSet × PerPort (Option Nat) × Option Nat)

def State.holdings (s : State) : Holdings :=
  ⟨s.stage, fun p => (s.eng p).state, fun p => (s.eng p).withdrawals, fun p => (s.portCfg p).enabled, s.queue,
    s.pollOutstanding, s.config.right, s.config.store, fun i => (s.notice i).map Notice.holding⟩

theorem recordsHoldLess_of_holding (h : ∀ j, (t.notice j).map Notice.holding = (s.notice j).map Notice.holding) :
    RecordsHoldLess s t := fun j m hm => by
  have hj := h j
  rw [hm, Option.map_some, eq_comm, Option.map_eq_some_iff] at hj
  obtain ⟨n, hn, he⟩ := hj
  simp only [Notice.holding, Prod.mk.injEq] at he
  obtain ⟨hst, ho, ht, hv⟩ := he
  exact .inr ⟨n, hn, fun p h => ho ▸ h, fun p h => hst.trans h,
    fun hb => ⟨ho ▸ hb.1, hst ▸ hb.2.1, ht ▸ hb.2.2.1, hv ▸ hb.2.2.2⟩⟩

theorem RecordsHoldLess.offerCount_le (h : RecordsHoldLess s t) (p : Port) : t.offerCount p ≤ s.offerCount p :=
  offerCount_mono fun _ _ hm ho => h.offered hm ho

/-- What a port that holds nothing must not gain beside offers, claims and withdrawals. -/
structure RestKept (s t : State) (p : Port) : Prop where
  queue : s.queue p = [] → t.queue p = []
  polls : s.pollOutstanding p = false → t.pollOutstanding p = false
  right : s.config.right ≠ some p → t.config.right ≠ some p
  recipient : (∀ x, s.config.store ≠ .writing x (some p)) → ∀ x, t.config.store ≠ .writing x (some p)

theorem RestKept.holdsNothing (h : RestKept s t p) (hrec : RecordsHoldLess s t) (hs : HoldsNothing s p)
    (hw : (t.eng p).withdrawals = []) : HoldsNothing t p where
  queue := h.queue hs.queue
  offers j m hm := by
    by_contra ho
    obtain ⟨n, hn, hno⟩ := hrec.offered hm (by simpa using ho)
    rw [hs.offers j n hn] at hno
    cases hno
  claims j m hm hc := by
    obtain ⟨n, hn, hnc⟩ := hrec.claimed hm hc
    exact hs.claims j n hn hnc
  polls := h.polls hs.polls
  right := h.right hs.right
  recipient := h.recipient hs.recipient
  withdrawals := hw

/-- An operation of which each part is accounted for. -/
theorem NoNewHoldings.of_parts (hb : t.stage = .booting ↔ s.stage = .booting)
    (hrun : s.stage = .running → t.stage = .running) (hst : ∀ p, (t.eng p).state = (s.eng p).state)
    (hen : ∀ p, (t.portCfg p).enabled = (s.portCfg p).enabled) (hrec : RecordsHoldLess s t)
    (hrest : ∀ p, (s.eng p).state.isOn = false → RestKept s t p)
    (hw : ∀ p, (s.eng p).state.isOn = false → HoldsNothing s p → (t.eng p).withdrawals = []) : NoNewHoldings s t where
  booting := hb
  running := hrun
  state := hst
  enabled := hen
  window p h := (hrec.offerCount_le p).trans h
  nothing p hoff hs := (hrest p hoff).holdsNothing hrec hs (hw p hoff hs)
  bare _ _ := hrec.bareAt

theorem NoNewHoldings.of_holdings (h : t.holdings = s.holdings) : NoNewHoldings s t := by
  have hst : t.stage = s.stage := congrArg Holdings.stage h
  have hw (p : Port) : (t.eng p).withdrawals = (s.eng p).withdrawals := congrFun (congrArg Holdings.withdrawals h) p
  have hq (p : Port) : t.queue p = s.queue p := congrFun (congrArg Holdings.queue h) p
  have hpoll (p : Port) : t.pollOutstanding p = s.pollOutstanding p := congrFun (congrArg Holdings.polled h) p
  have hright : t.config.right = s.config.right := congrArg Holdings.right h
  have hstore : t.config.store = s.config.store := congrArg Holdings.store h
  exact .of_parts (by rw [hst]) (by rw [hst]; exact id) (congrFun (congrArg Holdings.state h))
    (congrFun (congrArg Holdings.enabled h)) (recordsHoldLess_of_holding (congrFun (congrArg Holdings.record h)))
    (fun p _ => ⟨by rw [hq]; exact id, by rw [hpoll]; exact id, by rw [hright]; exact id, by rw [hstore]; exact id⟩)
    (fun p _ hs => by rw [hw, hs.withdrawals])

/-- An operation on notices and queues that gives no port an offer or a claim, and a reference only to a port that is
ATTACHED or HELD. -/
structure NoticesHoldLess (s t : State) : Prop where
  rest : t.offNotices = s.offNotices
  records : RecordsHoldLess s t
  queue : ∀ p, (s.eng p).state.isOn = false → s.queue p = [] → t.queue p = []

theorem eng_of_offNotices (h : t.offNotices = s.offNotices) (p : Port) : t.eng p = s.eng p := by
  obtain ⟨-, -, -, -, he, -⟩ := offNotices_fields h
  simp only [State.eng, he]

theorem NoticesHoldLess.of_eq (h : t.offNotices = s.offNotices) (hn : ∀ j, t.notice j = s.notice j)
    (hq : ∀ p, s.queue p = [] → t.queue p = []) : NoticesHoldLess s t := ⟨h, .of_eq hn, fun p _ => hq p⟩

theorem NoticesHoldLess.refl (s : State) : NoticesHoldLess s s := .of_eq rfl (fun _ => rfl) fun _ => id

theorem NoticesHoldLess.trans (h : NoticesHoldLess s t) (k : NoticesHoldLess t u) : NoticesHoldLess s u where
  rest := k.rest.trans h.rest
  records := h.records.trans k.records
  queue p hoff hq := k.queue p (by rw [eng_of_offNotices h.rest]; exact hoff) (h.queue p hoff hq)

theorem NoticesHoldLess.foldl {α : Type} {op : State → α → State} (hop : ∀ t x, NoticesHoldLess t (op t x)) (l : List α)
    (s : State) : NoticesHoldLess s (l.foldl op s) :=
  NoticeInvariant.foldl (P := NoticesHoldLess s) (fun t x h => h.trans (hop t x)) l (.refl s)

theorem NoticesHoldLess.noNew (h : NoticesHoldLess s t) : NoNewHoldings s t := by
  obtain ⟨h, hrec, hq⟩ := h
  obtain ⟨-, hst, -, hbus, he, hc, -⟩ := offNotices_fields h
  have heng (p : Port) : t.eng p = s.eng p := by simp only [State.eng, he]
  exact .of_parts (by rw [hst]) (by rw [hst]; exact id) (fun p => by rw [heng])
    (fun p => by simp only [State.portCfg, hc]) hrec
    (fun p hoff => ⟨hq p hoff, by simp only [State.pollOutstanding, hbus]; exact id, by rw [hc]; exact id,
      by rw [hc]; exact id⟩)
    (fun p _ hs => by rw [heng, hs.withdrawals])

/-- An operation on the port engines that gives withdrawals to ports with holdings alone. -/
theorem NoNewHoldings.of_engines (h : t.offEngines = s.offEngines) (hst : ∀ p, (t.eng p).state = (s.eng p).state)
    (hw : ∀ p, HoldsNothing s p → (t.eng p).withdrawals = []) : NoNewHoldings s t := by
  obtain ⟨hstage, -, hn, hd, hbus, -, hc⟩ := offEngines_fields h
  exact .of_parts (by rw [hstage]) (by rw [hstage]; exact id) hst (fun p => by simp only [State.portCfg, hc])
    (.of_eq fun j => by simp only [State.notice, hn])
    (fun p _ => ⟨by simp only [State.queue, hd]; exact id, by simp only [State.pollOutstanding, hbus]; exact id,
      by rw [hc]; exact id, by rw [hc]; exact id⟩)
    (fun p _ => hw p)

/-- An operation on the bus and the stage. -/
theorem NoNewHoldings.of_bus (h : t.offBus = s.offBus) (hb : t.stage = .booting ↔ s.stage = .booting)
    (hrun : s.stage = .running → t.stage = .running)
    (hpoll : ∀ p, (s.eng p).state.isOn = false → s.pollOutstanding p = false → t.pollOutstanding p = false) :
    NoNewHoldings s t := by
  simp only [State.offBus, Prod.mk.injEq] at h
  obtain ⟨-, -, hn, hd, he, -, hc, -⟩ := h
  have heng (p : Port) : t.eng p = s.eng p := by simp only [State.eng, he]
  exact .of_parts hb hrun (fun p => by rw [heng]) (fun p => by simp only [State.portCfg, hc])
    (.of_eq fun j => by simp only [State.notice, hn])
    (fun p hoff => ⟨by simp only [State.queue, hd]; exact id, hpoll p hoff, by rw [hc]; exact id,
      by rw [hc]; exact id⟩)
    (fun p _ hs => by rw [heng, hs.withdrawals])

/-- A change of the configuration unit that leaves which ports are enabled. -/
theorem NoNewHoldings.of_config (c : ConfigUnit)
    (hen : ∀ p, (c.tables.ports.get p).enabled = (s.portCfg p).enabled)
    (hright : ∀ p, (s.eng p).state.isOn = false → s.config.right ≠ some p → c.right ≠ some p)
    (hrecipient : ∀ p, (s.eng p).state.isOn = false → (∀ x, s.config.store ≠ .writing x (some p)) →
      ∀ x, c.store ≠ .writing x (some p)) : NoNewHoldings s { s with config := c } :=
  .of_parts Iff.rfl id (fun _ => rfl) hen (.of_eq fun _ => rfl)
    (fun p hoff => ⟨id, id, hright p hoff, hrecipient p hoff⟩) (fun _ _ hs => hs.withdrawals)

/-! ### The small updates -/

theorem setEng_noNew {e : PortEngine} (hst : e.state = (s.eng p).state) (hw : e.withdrawals = (s.eng p).withdrawals) :
    NoNewHoldings s (s.setEng p e) := by
  refine .of_engines rfl (fun q => ?_) fun q hs => ?_
  · rw [State.eng_setEng]
    split
    · subst_vars
      exact hst
    · rfl
  · rw [State.eng_setEng]
    split
    · subst_vars
      rw [hw, hs.withdrawals]
    · exact hs.withdrawals

theorem respond_noNew (s : State) (p : Port) (r : Response) : NoNewHoldings s (s.respond p r) := setEng_noNew rfl rfl

/-- A withdrawal to a port that held something when the event began. -/
theorem NoNewHoldings.withdraw (h : NoNewHoldings s t) (hp : ¬ HoldsNothing s p) (w : Withdrawal) :
    NoNewHoldings s (t.withdraw p w) := by
  have hstate (q : Port) : ((t.withdraw p w).eng q).state = (t.eng q).state := by
    rw [withdraw_eng]
    split
    · subst_vars
      rfl
    · rfl
  refine ⟨h.booting, h.running, fun q => (hstate q).trans (h.state q), h.enabled, h.window, fun q hoff hs => ?_, h.bare⟩
  obtain ⟨hqueue, hoffers, hclaims, hpolls, hright, hrecipient, hwith⟩ := h.nothing q hoff hs
  refine ⟨hqueue, hoffers, hclaims, hpolls, hright, hrecipient, ?_⟩
  rw [withdraw_eng, if_neg (by rintro rfl; exact hp hs)]
  exact hwith

theorem not_holdsNothing_of_offer (hn : s.notice i = some n) (ho : n.offers.has p = true) : ¬ HoldsNothing s p :=
  fun h => by
    rw [h.offers i n hn] at ho
    cases ho

theorem not_holdsNothing_of_claim (hn : s.notice i = some n) (hc : n.state = .claimed p) : ¬ HoldsNothing s p :=
  fun h => h.claims i n hn hc

theorem setNotice_holdLess {o : Option Notice}
    (h : ∀ m, o = some m → m.Bare ∨ ∃ n, s.notice i = some n ∧ m.HoldsLess n) :
    NoticesHoldLess s (s.setNotice i o) := by
  refine ⟨rfl, fun j m hm => ?_, fun _ _ => id⟩
  rw [State.notice_setNotice] at hm
  split at hm
  · subst_vars
    exact h m rfl
  · exact .inr ⟨m, hm, .refl m⟩

theorem modNotice_holdLess {f : Notice → Notice} (h : ∀ n, s.notice i = some n → (f n).HoldsLess n) :
    NoticesHoldLess s (s.modNotice i f) := by
  unfold State.modNotice
  split
  · exact .refl s
  · rename_i n hn
    refine setNotice_holdLess fun m hm => ?_
    cases hm
    exact .inr ⟨n, hn, h n hn⟩

theorem addTried_holdLess (s : State) (p : Port) (i : Src) : NoticesHoldLess s (s.addTried p i) :=
  modNotice_holdLess fun _ _ => ⟨fun _ => id, fun _ => id, id⟩

theorem revokeClaim_holdLess (s : State) (p : Port) (i : Src) : NoticesHoldLess s (s.revokeClaim p i) :=
  modNotice_holdLess fun _ _ => ⟨fun _ => id, nofun, fun h => ⟨h.1, nofun, h.2.2.1, rfl⟩⟩

theorem dropOffer_holdLess (s : State) (p : Port) (i : Src) : NoticesHoldLess s (s.dropOffer p i) :=
  modNotice_holdLess fun n _ => {
    offers := fun q h => by
      rw [PortSet.has_erase, Bool.and_eq_true] at h
      exact h.2
    claim := fun _ => id
    bare := fun h => by
      obtain ⟨ho, hc, ht, hv⟩ := h
      refine ⟨PerPort.ext_get fun q => ?_, hc, PerPort.ext_get fun q => ?_, hv⟩
      · show (n.offers.erase p).has q = PortSet.empty.has q
        rw [PortSet.has_erase, ho, PortSet.has_empty, Bool.and_false]
      · show (n.offerTimers.set p none).get q = _
        rw [PerPort.get_set, ht, PerPort.get_all, ite_self] }

theorem setQueue_holdLess {l : List Src} (h : (s.eng p).state.isOn = true ∨ (s.queue p = [] → l = [])) :
    NoticesHoldLess s (s.setQueue p l) := by
  refine ⟨rfl, .of_eq fun _ => rfl, fun q hoff hq => ?_⟩
  rw [State.queue_setQueue]
  split
  · subst_vars
    rcases h with hon | hl
    · rw [hoff] at hon
      cases hon
    · exact hl hq
  · exact hq

theorem NoticesHoldLess.of_offDelivery (h : t.offDelivery = s.offDelivery) (hq : ∀ p, s.queue p = [] → t.queue p = []) :
    NoticesHoldLess s t := by
  obtain ⟨-, -, hn, -⟩ := offDelivery_fields h
  exact .of_eq (offNotices_of_offDelivery h) (fun j => by simp only [State.notice, hn]) hq

theorem setStranded_holdLess (s : State) (l : List Src) :
    NoticesHoldLess s (s.setStranded l) := .of_eq rfl (fun _ => rfl) fun _ => id

theorem triggerPass_holdLess (s : State) : NoticesHoldLess s s.triggerPass :=
  .of_offDelivery (triggerPass_offDelivery s) fun p h => by rw [triggerPass_queue, h]

theorem triggerIf_holdLess (s : State) (c : Bool) : NoticesHoldLess s (s.triggerIf c) := by
  unfold State.triggerIf
  split
  · exact triggerPass_holdLess s
  · exact .refl s

theorem endPass_holdLess (s : State) : NoticesHoldLess s s.endPass :=
  .of_offDelivery (endPass_offDelivery s) fun p h => by rw [endPass_queue, h]

theorem prunePass_holdLess (s : State) (i : Src) : NoticesHoldLess s (s.prunePass i) :=
  .of_offDelivery (prunePass_offDelivery s i) fun p h => by rw [prunePass_queue, h]

theorem removeRefs_holdLess (s : State) (i : Src) : NoticesHoldLess s (s.removeRefs i) :=
  .of_offDelivery (removeRefs_offDelivery s i) fun p h => by rw [removeRefs_queue, h]; rfl

/-! ### Walks (R83 to R87) -/

/-- A reference given at a port that is ATTACHED or HELD. -/
theorem giveRef_holdLess (hon : (s.eng p).state.isOn = true) : NoticesHoldLess s (s.giveRef i p) := by
  have hinsert : NoticesHoldLess s (s.insertRef p i) :=
    (setQueue_holdLess (.inl hon)).trans (.of_eq rfl (fun _ => rfl) fun _ => id)
  have hwait : NoticesHoldLess (s.insertRef p i)
      ((s.insertRef p i).modNotice i (fun n => { n with state := .waiting })) :=
    modNotice_holdLess fun _ _ => holdsLess_of_freed nofun rfl rfl rfl
  exact (hinsert.trans hwait).trans (.of_eq rfl (fun _ => rfl) fun _ => id)

theorem strand_holdLess (s : State) (i : Src) : NoticesHoldLess s (s.strand i) := by
  have hmod : NoticesHoldLess s (s.modNotice i (fun n => { n with state := .stranded, tried := PortSet.empty })) :=
    modNotice_holdLess fun _ _ => holdsLess_of_freed nofun rfl rfl rfl
  exact hmod.trans (.of_eq rfl (fun _ => rfl) fun _ => id)

theorem eligible_on (h : s.eligible i n p = true) : (s.eng p).state.isOn = true := by
  obtain ⟨-, ⟨w, hw⟩ | ⟨w, hw⟩, -⟩ := (eligible_iff s i n p).mp h <;> rw [hw] <;> rfl

theorem placeRefs_holdLess (s : State) (i : Src) (n : Notice) : NoticesHoldLess s (s.placeRefs i n) := by
  unfold State.placeRefs
  split
  · split
    · rename_i hf
      exact giveRef_holdLess (eligible_on (List.find?_some hf))
    · exact .refl s
  · refine .foldl (fun t p => ?_) _ s
    split
    · rename_i he
      exact giveRef_holdLess (eligible_on he)
    · exact .refl t

theorem walk_holdLess (s : State) (i : Src) : NoticesHoldLess s (s.walk i) := by
  unfold State.walk
  split
  · exact .refl s
  · dsimp only
    split
    · exact placeRefs_holdLess s i _
    · exact (placeRefs_holdLess s i _).trans (strand_holdLess _ i)

theorem walkIfBare_holdLess (s : State) (i : Src) : NoticesHoldLess s (s.walkIfBare i) := by
  unfold State.walkIfBare
  split
  · exact .refl s
  · exact walk_holdLess s i

theorem passStep_holdLess (s : State) : NoticesHoldLess s s.passStep := by
  unfold State.passStep
  split
  · exact .refl s
  · rename_i rest _
    have hrest : NoticesHoldLess s (s.setPass rest s.delivery.passPending) := .of_eq rfl (fun _ => rfl) fun _ => id
    refine (hrest.trans ?_).trans (endPass_holdLess _)
    split
    · exact walk_holdLess _ _
    · exact .refl _

/-! ### Claims and the end of a notice (R56, R103) -/

/-- An offer that becomes a claim of a port that held it; the other ports of the offer set are told. -/
theorem makeClaim_noNew (hn : s.notice i = some n) (ho : n.offers.has p = true) :
    NoNewHoldings s (s.makeClaim p i n) := by
  have hmade := makeClaim_made s p i n
  generalize s.makeClaim p i n = t at hmade
  refine ⟨by rw [hmade.stage], by rw [hmade.stage]; exact id, fun q => by rw [hmade.eng],
    fun q => by simp only [State.portCfg, hmade.config], fun q hw => ?_, fun q hoff hs => ?_, fun _ j hj => ?_⟩
  · refine (offerCount_mono fun j m hm hq => ?_).trans hw
    rw [hmade.notice] at hm
    split at hm
    · cases hm
      rw [show (n.claimedBy p).offers = PortSet.empty from rfl, PortSet.has_empty] at hq
      cases hq
    · exact ⟨m, hm, hq⟩
  · have hqp : q ≠ p := fun h => not_holdsNothing_of_offer hn ho (h ▸ hs)
    refine ⟨by rw [hmade.queue, hs.queue]; rfl, fun j m hm => ?_, fun j m hm hc => ?_,
      by simpa only [State.pollOutstanding, hmade.bus] using hs.polls, hmade.config ▸ hs.right,
      hmade.config ▸ hs.recipient, ?_⟩
    · rw [hmade.notice] at hm
      split at hm
      · cases hm
        exact PortSet.has_empty q
      · exact hs.offers j m hm
    · rw [hmade.notice] at hm
      split at hm
      · cases hm
        injection hc with hc
        exact hqp hc.symm
      · exact hs.claims j m hm hc
    · rw [hmade.eng, hs.withdrawals, hs.offers i n hn]
      simp
  · intro m hm
    rw [hmade.notice] at hm
    split at hm
    · subst_vars
      rw [(hj n hn).not_offered p] at ho
      cases ho
    · exact hj m hm

theorem withdrawAll_noNew (hn : s.notice i = some n) (r : Reason) : NoNewHoldings s (s.withdrawAll i n r) := by
  refine NoticeInvariant.foldl (P := NoNewHoldings s) (fun t p h => ?_) Port.all (.refl s)
  split
  · rename_i hc
    refine h.withdraw ?_ _
    rw [Bool.or_eq_true, beq_iff_eq] at hc
    exact hc.elim (not_holdsNothing_of_offer hn) (not_holdsNothing_of_claim hn)
  · exact h

theorem eraseNotice_holdLess (s : State) (i : Src) : NoticesHoldLess s (s.eraseNotice i) := by
  have hrefs := removeRefs_holdLess s i
  unfold State.eraseNotice
  generalize s.removeRefs i = t at hrefs ⊢
  exact (hrefs.trans (setNotice_holdLess fun m hm => by cases hm)).trans (setStranded_holdLess _ _)

theorem endNotice_noNew (s : State) (i : Src) (r : Option Reason) : NoNewHoldings s (s.endNotice i r) := by
  have herased (t : State) : NoNewHoldings t ((t.eraseNotice i).prunePass i) :=
    ((eraseNotice_holdLess t i).trans (prunePass_holdLess _ i)).noNew
  unfold State.endNotice
  split
  · exact .refl s
  · rename_i hn
    exact (withdrawAll_noNew hn _).trans (herased _)
  · exact herased s

/-! ### Openings, reports and failed exchanges (R10 to R17) -/

theorem setSrc_noNew (s : State) (i : Src) (r : SourceRt) : NoNewHoldings s (s.setSrc i r) := .of_holdings rfl

theorem setLine_noNew (s : State) (k : Fin 8) (r : LineRt) : NoNewHoldings s (s.setLine k r) := .of_holdings rfl

theorem openNotice_noNew (s : State) (i : Src) (conds : CodeSet) : NoNewHoldings s (s.openNotice i conds) := by
  have hbare : (s.newNotice i conds).Bare := ⟨rfl, nofun, rfl, rfl⟩
  have hset : NoNewHoldings s (((s.setSrc i { s.src i with
      state := .opened, openings := (s.src i).openings + 1 })).setNotice i (some (s.newNotice i conds))) :=
    (setSrc_noNew s i _).trans (setNotice_holdLess fun m hm => .inl (Option.some.inj hm ▸ hbare)).noNew
  have hrecord : NoNewHoldings s (s.recordOpening i conds) := hset.trans (.of_holdings rfl)
  rw [openNotice_eq]
  exact hrecord.trans (walk_holdLess _ i).noNew

theorem applyConditions_noNew (s : State) (i : Src) (new : CodeSet) : NoNewHoldings s (s.applyConditions i new) := by
  unfold State.applyConditions
  split
  · exact .refl s
  · split
    · exact .refl s
    · exact openNotice_noNew s i new
  · split
    · exact .refl s
    · rename_i n hn
      split
      · refine (setNotice_holdLess fun m hm => ?_).noNew
        cases hm
        exact .inr ⟨n, hn, fun _ => id, fun _ => id, id⟩
      · exact setSrc_noNew s i _
  · exact setSrc_noNew s i _

theorem reportArrival_noNew (s : State) (i : Src) (report : CodeSet) : NoNewHoldings s (s.reportArrival i report) := by
  unfold State.reportArrival
  split
  · exact .refl s
  · exact (setSrc_noNew s i _).trans (applyConditions_noNew _ i _)

theorem failedExchange_noNew (s : State) (i : Src) : NoNewHoldings s (s.failedExchange i) := by
  have hlost : NoNewHoldings s (s.losesSource i) := .of_holdings rfl
  unfold State.failedExchange
  dsimp only
  split
  · exact .refl s
  · split
    · exact hlost.trans (applyConditions_noNew _ i _)
    · split
      · exact setSrc_noNew s i _
      · exact .refl s

theorem outcomeAfterClearAll_noNew (s : State) (i : Src) (good : Bool) :
    NoNewHoldings s (s.outcomeAfterClearAll i good) := by
  unfold State.outcomeAfterClearAll
  dsimp only
  repeat' split
  all_goals exact .of_holdings rfl

theorem handOutcome_noNew (s : State) (t : InFlight) (i : Src) (o : BusOutcome) :
    NoNewHoldings s (s.handOutcome t i o) := by
  unfold State.handOutcome
  cases o with
  | replied r => dsimp only; split; exacts [outcomeAfterClearAll_noNew s i _, reportArrival_noNew s i r]
  | badCheck => dsimp only; split; exacts [outcomeAfterClearAll_noNew s i _, failedExchange_noNew s i]
  | noReply => dsimp only; split; exacts [outcomeAfterClearAll_noNew s i _, failedExchange_noNew s i]

theorem lineQuery_noNew (s : State) (k : Fin 8) : NoNewHoldings s (s.lineQuery k) := by
  unfold State.lineQuery
  dsimp only
  split
  · exact .refl s
  · split
    · exact (setLine_noNew s k _).trans (reportArrival_noNew _ _ _)
    · exact setLine_noNew s k _

theorem lineRose_noNew (s : State) (i : Src) : NoNewHoldings s (s.lineRose i) := by
  unfold State.lineRose
  split
  · exact .refl s
  · exact (setLine_noNew s _ _).trans (reportArrival_noNew _ _ _)

theorem clearCompletion_noNew (s : State) (i : Src) (report : CodeSet) :
    NoNewHoldings s (s.clearCompletion i report) := by
  have hc : NoNewHoldings s (s.cleared i) := setSrc_noNew s i _
  rw [clearCompletion_eq]
  split
  · exact hc
  · exact hc.trans (openNotice_noNew _ i _)

theorem closeNotice_noNew (s : State) (i : Src) (n : Notice) (effective : CodeSet) :
    NoNewHoldings s (s.closeNotice i n effective) := by
  rw [closeNotice_eq]
  refine ((endNotice_noNew s i none).trans (setSrc_noNew _ i ((s.src i).closing n.conds effective))).trans ?_
  generalize (s.endNotice i none).setSrc i ((s.src i).closing n.conds effective) = t
  unfold State.beginClear
  split
  · exact .of_holdings rfl
  · exact ((setLine_noNew t _ _).trans (setSrc_noNew _ i _)).trans (clearCompletion_noNew _ i _)

end Sys2Proof.Machine

/-! SUPPORT. The bus and the transmitters give no port a holding that it may not have, and what keeps the two invariants
of holdings. -/

namespace Sys2Proof.Machine

variable {s t u : State} {i : Src} {n m : Notice} {p q : Port}

/-! ### Polls (R38, R40) -/

/-- A port is a requester of a poll that waits or is in flight. -/
theorem pollOutstanding_iff (s : State) (p : Port) : s.pollOutstanding p = true ↔
    (∃ e ∈ s.bus.pollQueue, e.requesters.has p = true) ∨
      ∃ t e, s.bus.state = .inFlight t ∧ t.work = .poll e ∧ e.requesters.has p = true := by
  unfold State.pollOutstanding
  rw [Bool.or_eq_true, List.any_eq_true]
  refine or_congr_right ?_
  rcases s.bus.state with _ | ⟨_ | _ | _ | _, _, _, _⟩ | _ <;> simp

theorem pollOutstanding_mono (h : t.pollOutstanding p = true → s.pollOutstanding p = true)
    (hs : s.pollOutstanding p = false) : t.pollOutstanding p = false := by
  by_contra ht
  rw [h (by simpa using ht)] at hs
  cases hs

theorem setBus_noNew {b : FieldBus} (h : ∀ p, (s.eng p).state.isOn = false →
    (s.setBus b).pollOutstanding p = true → s.pollOutstanding p = true) : NoNewHoldings s (s.setBus b) :=
  .of_bus rfl Iff.rfl id fun p hoff => pollOutstanding_mono (h p hoff)

theorem endTransaction_noNew (s : State) (t : InFlight) (kind : PrevKind) (ack : AckSlot) :
    NoNewHoldings s (s.endTransaction t kind ack) := setBus_noNew fun p _ h => by
  rw [pollOutstanding_iff] at h ⊢
  rcases h with h | ⟨_, _, h, -⟩
  · exact .inl h
  · cases h

/-- A transaction that opens carries the requesters of the poll that it carries, if it carries one (R32). -/
theorem openTransaction_polled {w : BusWork} (h : (t.openTransaction w).pollOutstanding p = true) :
    (∃ e ∈ t.bus.pollQueue, e.requesters.has p = true) ∨ ∃ e, w = .poll e ∧ e.requesters.has p = true := by
  rw [pollOutstanding_iff] at h
  refine h.imp id ?_
  rintro ⟨g, e, hg, hw, he⟩
  cases hg
  exact ⟨e, hw, he⟩

/-- A choice of the arbiter makes no port a requester (R43). -/
theorem choose_polled (s : State) (h : s.choose.pollOutstanding p = true) : s.pollOutstanding p = true := by
  by_cases hbid : s.BidDue
  · rw [choose_bid hbid] at h
    rw [pollOutstanding_iff]
    exact .inl ((openTransaction_polled h).resolve_right nofun)
  · rw [choose_work hbid] at h
    rw [pollOutstanding_iff]
    split at h
    · exact .inl ((openTransaction_polled h).resolve_right nofun)
    · split at h
      · rename_i e rest hq
        rw [hq]
        rcases openTransaction_polled h with ⟨x, hx, hp⟩ | ⟨x, hx, hp⟩
        · exact .inl ⟨x, List.mem_cons_of_mem e hx, hp⟩
        · cases hx
          exact .inl ⟨e, List.mem_cons_self, hp⟩
      · split at h
        · exact .inl ((openTransaction_polled h).resolve_right nofun)
        · exact (pollOutstanding_iff s p).mp h

theorem advanceScan_noNew (s : State) : NoNewHoldings s s.advanceScan := by
  obtain ⟨hbus, hstage, -⟩ := advanceScan_bus s
  refine .of_bus (advanceScan_offBus s) (advanceScan_booting s) (fun hr => ?_) fun p _ => pollOutstanding_mono ?_
  · rcases hstage with h | ⟨h, -⟩
    · exact h.trans hr
    · rw [hr] at h
      cases h
  · simp only [pollOutstanding_iff]
    rw [hbus]
    exact id

theorem arbiter_noNew (s : State) : NoNewHoldings s s.arbiter := by
  unfold State.arbiter
  split
  · refine (advanceScan_noNew s).trans (.of_bus (choose_offBus _) ?_ ?_ fun p _ => pollOutstanding_mono ?_)
    · rw [(choose_bus _).2.2.1]
    · rw [(choose_bus _).2.2.1]
      exact id
    · exact choose_polled _
  · exact .refl s

theorem bidFailed_noNew (s : State) : NoNewHoldings s s.bidFailed := .of_holdings rfl

theorem moveCursor_noNew (s : State) (o : BusOutcome) : NoNewHoldings s (s.moveCursor o) := by
  unfold State.moveCursor
  repeat' split
  all_goals exact .of_holdings rfl

theorem clearFailed_noNew (s : State) (e : ClearEntry) : NoNewHoldings s (s.clearFailed e) := by
  have hf := failedExchange_noNew s e.src
  unfold State.clearFailed
  dsimp only
  generalize s.failedExchange e.src = t at hf ⊢
  split
  · exact hf.trans (.of_holdings rfl)
  · split
    · exact hf.trans (clearCompletion_noNew t _ _)
    · exact hf

theorem clearEffect_noNew (s : State) (e : ClearEntry) (o : BusOutcome) : NoNewHoldings s (s.clearEffect e o) := by
  unfold State.clearEffect
  cases o with
  | replied r =>
    dsimp only
    split
    · exact (setSrc_noNew s _ _).trans (clearCompletion_noNew _ _ _)
    · exact .refl s
  | badCheck => exact clearFailed_noNew s e
  | noReply => exact clearFailed_noNew s e

/-! ### The end of an event (R96) -/

/-- A frame that begins takes withdrawals off its port's list alone, and leaves the state of the port. -/
theorem settlePort_port (s : State) (p : Port) : ((s.settlePort p).eng p).state = (s.eng p).state ∧
    ((s.eng p).withdrawals = [] → ((s.settlePort p).eng p).withdrawals = []) := by
  obtain ⟨⟨r, o, x, hrate⟩, -, -⟩ := applyRate_keeps s p p
  have hst : ((s.applyRate p).eng p).state = (s.eng p).state := by rw [hrate]
  have hwd : ((s.applyRate p).eng p).withdrawals = (s.eng p).withdrawals := by rw [hrate]
  have hrem (t : State) (i : Src) : (t.removeRef i p).eng p = t.eng p := by
    obtain ⟨-, -, -, -, he, -⟩ := offDelivery_fields (removeRef_offDelivery t i p)
    simp only [State.eng, he]
  rw [← hst, ← hwd]
  unfold State.settlePort
  generalize s.applyRate p = t
  unfold State.chooseFrame State.takeHead State.beginFrame
  dsimp only
  split
  · split
    · simp
    · split
      · rename_i hq
        simp [hq]
      · repeat' split
        all_goals simp [hrem]
  · exact ⟨rfl, id⟩

theorem settlePort_portState (s : State) (p q : Port) : ((s.settlePort p).eng q).state = (s.eng q).state := by
  by_cases hpq : p = q
  · subst hpq
    exact (settlePort_port s p).1
  · rw [settlePort_eng_ne s hpq]

/-- A head taken adds one offer of its port at most (R96). -/
theorem settlePort_offerCount_le (s : State) (p : Port) : (s.settlePort p).offerCount p ≤ s.offerCount p + 1 := by
  cases ht : s.headTaken p with
  | none =>
    have : (s.settlePort p).offerCount p = s.offerCount p := by
      simp only [State.offerCount, State.notice, ((settlePort_parts s p).1 ht).1]
    omega
  | some i =>
    have hnodup : Src.all.Nodup := List.nodup_finRange 56
    refine ((hnodup.filter _).subperm fun j hj => ?_).length_le.trans (List.length_cons (a := i)).le
    rw [List.mem_filter] at hj
    by_cases hij : i = j
    · rw [hij]
      exact List.mem_cons_self
    · rw [settlePort_notice, ht, if_neg (mt Option.some.inj hij)] at hj
      exact List.mem_cons_of_mem i (List.mem_filter.mpr hj)

theorem settlePort_holdsNothing (hoff : (s.eng q).state.isOn = false) (hs : HoldsNothing s q) :
    HoldsNothing (s.settlePort p) q := by
  obtain ⟨-, -, -, hbus, hc, -⟩ := offLinks_fields (settlePort_offLinks s p)
  have hnot (j : Src) (hj : s.headTaken p = some j) : p ≠ q := by
    rintro rfl
    obtain ⟨-, htake, -⟩ := headTaken_some hj
    obtain ⟨-, -, -, -, w, hw, -⟩ := (canTakeHead_iff s p).mp htake
    rw [hw] at hoff
    cases hoff
  have hrecord (j : Src) (m : Notice) (hm : (s.settlePort p).notice j = some m) :
      ∃ n, s.notice j = some n ∧ m.state = n.state ∧ m.offers.has q = n.offers.has q := by
    rw [settlePort_notice] at hm
    split at hm
    · rename_i hj
      obtain ⟨n, hn, rfl⟩ := Option.map_eq_some_iff.mp hm
      exact ⟨n, hn, rfl, by rw [offerTo_has, decide_eq_false (hnot j hj), Bool.false_or]⟩
    · exact ⟨m, hm, rfl, rfl⟩
  exact {
    queue := by rw [settlePort_queue, hs.queue]; rfl
    offers := fun j m hm => by
      obtain ⟨n, hn, -, ho⟩ := hrecord j m hm
      rw [ho]
      exact hs.offers j n hn
    claims := fun j m hm => by
      obtain ⟨n, hn, hst, -⟩ := hrecord j m hm
      rw [hst]
      exact hs.claims j n hn
    polls := by simpa only [State.pollOutstanding, hbus] using hs.polls
    right := hc ▸ hs.right
    recipient := hc ▸ hs.recipient
    withdrawals := by
      by_cases hpq : p = q
      · subst hpq
        exact (settlePort_port s p).2 hs.withdrawals
      · rw [settlePort_eng_ne s hpq]
        exact hs.withdrawals }

theorem settlePort_noNew (s : State) (p : Port) : NoNewHoldings s (s.settlePort p) := by
  obtain ⟨-, hst, -, -, hc, -⟩ := offLinks_fields (settlePort_offLinks s p)
  refine ⟨by rw [hst], by rw [hst]; exact id, settlePort_portState s p, fun q => by simp only [State.portCfg, hc],
    fun q hw => ?_, fun q => settlePort_holdsNothing, fun hrun j hj m hm => ?_⟩
  · by_cases hpq : p = q
    · subst hpq
      cases ht : s.headTaken p with
      | none =>
        simpa only [State.offerCount, State.notice, ((settlePort_parts s p).1 ht).1] using hw
      | some i =>
        obtain ⟨-, htake, -⟩ := headTaken_some ht
        obtain ⟨-, -, -, -, w, hstate, hlt⟩ := (canTakeHead_iff s p).mp htake
        rw [hstate]
        exact (settlePort_offerCount_le s p).trans hlt
    · rwa [settlePort_offerCount_ne s hpq]
  · rw [settlePort_notice, if_neg] at hm
    · exact hj m hm
    · intro ht
      obtain ⟨-, htake, -⟩ := headTaken_some ht
      exact hrun (hst.trans ((canTakeHead_iff s p).mp htake).1)

theorem settle_noNew (s : State) : NoNewHoldings s s.settle :=
  ((settlePort_noNew s .A).trans (settlePort_noNew _ .B)).trans (settlePort_noNew _ .C)

/-! ### What keeps the two invariants -/

/-- What `HoldingsOk` says of one port, but for its entry. -/
structure PortOk (s : State) (p : Port) : Prop where
  off : (s.eng p).state.isOn = false → HoldsNothing s p
  window : (s.eng p).state.isOn = true →
    1 ≤ (s.eng p).state.window ∧ (s.eng p).state.window ≤ 4 ∧ s.offerCount p ≤ (s.eng p).state.window

theorem HoldingsOk.portOk (h : HoldingsOk s) (p : Port) : PortOk s p := ⟨h.off p, h.window p⟩

theorem NoNewHoldings.portOk (h : NoNewHoldings s t) (hs : PortOk s p) : PortOk t p where
  off hoff := by
    rw [h.state p] at hoff
    exact h.nothing p hoff (hs.off hoff)
  window hon := by
    rw [h.state p] at hon ⊢
    obtain ⟨hlow, hhigh, hoffers⟩ := hs.window hon
    exact ⟨hlow, hhigh, h.window p hoffers⟩

theorem PortOk.of_nothing (hoff : (s.eng p).state.isOn = false) (h : HoldsNothing s p) : PortOk s p where
  off _ := h
  window hon := by
    rw [hoff] at hon
    cases hon

/-- A port does not look at the engines of the others. -/
theorem PortOk.congr (h : PortOk s p) (hn : t.notices = s.notices) (hd : t.delivery = s.delivery)
    (hb : t.bus = s.bus) (hright : t.config.right = s.config.right) (hstore : t.config.store = s.config.store)
    (he : t.eng p = s.eng p) : PortOk t p where
  off hoff := by
    rw [he] at hoff
    obtain ⟨hqueue, hoffers, hclaims, hpolls, hr, hrecipient, hwith⟩ := h.off hoff
    exact ⟨by simpa only [State.queue, hd] using hqueue, by simpa only [State.notice, hn] using hoffers,
      by simpa only [State.notice, hn] using hclaims, by simpa only [State.pollOutstanding, hb] using hpolls,
      hright ▸ hr, hstore ▸ hrecipient, he ▸ hwith⟩
  window hon := by
    rw [he] at hon ⊢
    simpa only [State.offerCount, State.notice, hn] using h.window hon

/-- Between s and t the two invariants of holdings are kept (R92, R93, R116, R153). -/
structure HoldingsKept (s t : State) : Prop where
  ports : HoldingsOk s → HoldingsOk t
  bare : OffersOnlyInRunning s → OffersOnlyInRunning t

theorem HoldingsKept.refl (s : State) : HoldingsKept s s := ⟨id, id⟩

theorem HoldingsKept.trans (h : HoldingsKept s t) (k : HoldingsKept t u) : HoldingsKept s u :=
  ⟨fun hs => k.ports (h.ports hs), fun hs => k.bare (h.bare hs)⟩

theorem NoNewHoldings.kept (h : NoNewHoldings s t) : HoldingsKept s t where
  ports hs := {
    off := fun p => (h.portOk (hs.portOk p)).off
    window := fun p => (h.portOk (hs.portOk p)).window
    booting := fun hb p => (h.state p).trans (hs.booting (h.booting.mp hb) p)
    enabled := fun hb p => by
      rw [h.enabled, h.state]
      exact hs.enabled (mt h.booting.mpr hb) p }
  bare hs hrun j := h.bare hrun j (hs (fun hr => hrun (h.running hr)) j)

/-- A port that is not DISABLED takes another state in which it may be, by what it holds. -/
theorem setEng_kept {e : PortEngine} (hb : s.stage ≠ .booting) (hon : (s.eng p).state ≠ .disabled)
    (he : e.state ≠ .disabled) (hok : PortOk s p → PortOk (s.setEng p e) p) : HoldingsKept s (s.setEng p e) where
  ports hs := by
    have hport (q : Port) : PortOk (s.setEng p e) q := by
      by_cases hq : p = q
      · subst hq
        exact hok (hs.portOk p)
      · exact (hs.portOk q).congr rfl rfl rfl rfl rfl (by rw [State.eng_setEng, if_neg hq])
    refine ⟨fun q => (hport q).off, fun q => (hport q).window, fun h => absurd h hb, fun _ q => ?_⟩
    rw [State.portCfg_setEng, hs.enabled hb q, State.eng_setEng]
    split
    · subst_vars
      exact iff_of_true hon he
    · exact Iff.rfl
  bare hs := hs

end Sys2Proof.Machine

/-! SUPPORT. A detach leaves its port nothing, and the requests keep the two invariants of holdings. -/

namespace Sys2Proof.Machine

variable {s t u : State} {i : Src} {n m : Notice} {p q : Port} {f : Frame}

/-! ### The detach effects (R127, R91, R153) -/

/-- Rounds that each rid their own source of a property, and give it to no other, rid of it every source that they
reach. -/
theorem foldl_rids {op : State → Src → State} {Q : State → Src → Prop} (hown : ∀ t i, ¬ Q (op t i) i)
    (hothers : ∀ t i j, Q (op t i) j → Q t j) (l : List Src) (s : State) (hl : ∀ j, Q s j → j ∈ l) (j : Src) :
    ¬ Q (l.foldl op s) j := by
  induction l generalizing s with
  | nil => exact fun h => List.not_mem_nil (hl j h)
  | cons i l ih =>
    refine ih (op s i) fun k hk => ?_
    rcases List.mem_cons.mp (hl k (hothers s i k hk)) with rfl | h
    · exact absurd hk (hown s k)
    · exact h

/-- Rounds that each give no source a property give it to none. -/
theorem foldl_gives_none {op : State → Src → State} {Q : State → Src → Prop} (h : ∀ t i j, Q (op t i) j → Q t j)
    (l : List Src) (hs : ∀ j, ¬ Q s j) (j : Src) : ¬ Q (l.foldl op s) j :=
  NoticeInvariant.foldl (P := fun t => ∀ j, ¬ Q t j) (fun t i ht k hk => ht k (h t i k hk)) l hs j

/-- The notice of a source is offered to p. -/
def State.OfferedTo (s : State) (p : Port) (i : Src) : Prop := ∃ n, s.notice i = some n ∧ n.offers.has p = true

/-- The notice of a source is claimed by p. -/
def State.ClaimedBy (s : State) (p : Port) (i : Src) : Prop := ∃ n, s.notice i = some n ∧ n.state = .claimed p

theorem RecordsHoldLess.offeredTo (h : RecordsHoldLess s t) (ho : t.OfferedTo p i) : s.OfferedTo p i := by
  obtain ⟨m, hm, ho⟩ := ho
  exact h.offered hm ho

theorem RecordsHoldLess.claimedBy (h : RecordsHoldLess s t) (hc : t.ClaimedBy p i) : s.ClaimedBy p i := by
  obtain ⟨m, hm, hc⟩ := hc
  exact h.claimed hm hc

/-- The three rounds of the detach effects. -/
theorem dropOffer_round (t : State) (p : Port) (i : Src) : NoticesHoldLess t ((t.dropOffer p i).walkIfBare i) :=
  (dropOffer_holdLess t p i).trans (walkIfBare_holdLess _ i)

theorem revokeClaim_round (t : State) (p : Port) (i : Src) : NoticesHoldLess t ((t.revokeClaim p i).walkIfBare i) :=
  (revokeClaim_holdLess t p i).trans (walkIfBare_holdLess _ i)

theorem evict_holdLess (t : State) (p : Port) (i : Src) : NoticesHoldLess t (t.evict p i) :=
  (addTried_holdLess t p i).trans (walkIfBare_holdLess _ i)

theorem emptyQueue_round (t : State) (p : Port) (i : Src) :
    NoticesHoldLess t ((t.setQueue p (t.queue p).tail).evict p i) :=
  (setQueue_holdLess (.inr fun h => by rw [h]; rfl)).trans (evict_holdLess _ p i)

theorem dropOffer_round_own (t : State) (p : Port) (i : Src) : ¬ ((t.dropOffer p i).walkIfBare i).OfferedTo p i := by
  rintro h
  obtain ⟨m, hm, ho⟩ := (walkIfBare_holdLess (t.dropOffer p i) i).records.offeredTo h
  rw [State.dropOffer, modNotice_notice, if_pos rfl, Option.map_eq_some_iff] at hm
  obtain ⟨n, -, rfl⟩ := hm
  simp at ho

theorem revokeClaim_round_own (t : State) (p : Port) (i : Src) :
    ¬ ((t.revokeClaim p i).walkIfBare i).ClaimedBy p i := by
  rintro h
  obtain ⟨m, hm, hc⟩ := (walkIfBare_holdLess (t.revokeClaim p i) i).records.claimedBy h
  rw [State.revokeClaim, modNotice_notice, if_pos rfl, Option.map_eq_some_iff] at hm
  obtain ⟨n, -, rfl⟩ := hm
  cases hc

/-- A port whose offers and claims are taken away has none (R127). -/
theorem revokeAll_frees (s : State) (p : Port) : NoticesHoldLess s (s.revokeAll p) ∧
    (∀ i, ¬ (s.revokeAll p).OfferedTo p i) ∧ ∀ i, ¬ (s.revokeAll p).ClaimedBy p i := by
  unfold State.revokeAll
  generalize hol : sortByKey s.ageKey (s.noticesWith (fun n => n.offers.has p)) = offers
  generalize hcl : sortByKey s.ageKey (s.noticesWith (fun n => n.state == .claimed p)) = claims
  dsimp only
  have hless := NoticesHoldLess.foldl (fun t i => dropOffer_round t p i) offers s
  refine ⟨hless.trans (.foldl (fun t i => revokeClaim_round t p i) claims _), ?_, ?_⟩
  · refine foldl_gives_none (Q := fun t j => t.OfferedTo p j)
      (fun t i j => (revokeClaim_round t p i).records.offeredTo) claims ?_
    refine foldl_rids (Q := fun t j => t.OfferedTo p j) (fun t i => dropOffer_round_own t p i)
      (fun t i j => (dropOffer_round t p i).records.offeredTo) offers s fun j => ?_
    rintro ⟨n, hn, ho⟩
    rw [← hol, (sortByKey_perm _ _).mem_iff]
    exact mem_noticesWith.mpr ⟨n, hn, ho⟩
  · refine foldl_rids (Q := fun t j => t.ClaimedBy p j) (fun t i => revokeClaim_round_own t p i)
      (fun t i j => (revokeClaim_round t p i).records.claimedBy) claims _ fun j hj => ?_
    obtain ⟨n, hn, hc⟩ := hless.records.claimedBy hj
    rw [← hcl, (sortByKey_perm _ _).mem_iff]
    exact mem_noticesWith.mpr ⟨n, hn, by rw [hc, beq_self_eq_true]⟩

/-- Each round of R91 takes the head of the queue off it. -/
theorem emptyQueue_rounds (p : Port) (l : List Src) (s : State) :
    (l.foldl (fun t i => (t.setQueue p (t.queue p).tail).evict p i) s).queue p = (s.queue p).drop l.length := by
  induction l generalizing s with
  | nil => rfl
  | cons i l ih =>
    rw [List.foldl_cons, ih, evict_queue, State.queue_setQueue, if_pos rfl, List.length_cons, List.drop_tail]

theorem emptyQueue_empties (s : State) (p : Port) : NoticesHoldLess s (s.emptyQueue p) ∧
    (s.emptyQueue p).queue p = [] :=
  ⟨.foldl (fun t i => emptyQueue_round t p i) (s.queue p) s,
    (emptyQueue_rounds p (s.queue p) s).trans List.drop_length⟩

/-- A port that leaves the requester sets is in none, and no other port comes to be in one (R40). -/
theorem dropPolls_polled (h : (s.dropPolls p).pollOutstanding q = true) : p ≠ q ∧ s.pollOutstanding q = true := by
  rw [pollOutstanding_iff] at h
  rw [pollOutstanding_iff]
  rcases h with ⟨e, he, hq⟩ | ⟨g, e, hg, hw, hq⟩
  · simp only [State.dropPolls, State.bus_setBus, List.mem_filter, List.mem_map] at he
    obtain ⟨⟨x, hx, rfl⟩, -⟩ := he
    rw [PortSet.has_erase, Bool.and_eq_true, Bool.not_eq_true', decide_eq_false_iff_not] at hq
    exact ⟨hq.1, .inl ⟨x, hx, hq.2⟩⟩
  · simp only [State.dropPolls, State.bus_setBus] at hg
    split at hg
    · rename_i g' hg'
      split at hg
      · rename_i x hx
        cases hg
        cases hw
        rw [PortSet.has_erase, Bool.and_eq_true, Bool.not_eq_true', decide_eq_false_iff_not] at hq
        exact ⟨hq.1, .inr ⟨g', x, hg', hx, hq.2⟩⟩
      · rename_i hno
        rw [hg'] at hg
        cases hg
        exact absurd hw (hno e)
    · rename_i hno
      exact absurd hg (hno g)

theorem dropPolls_noNew (s : State) (p : Port) : NoNewHoldings s (s.dropPolls p) :=
  setBus_noNew fun _ _ h => (dropPolls_polled (s := s) h).2

theorem dropRight_gives (s : State) (p : Port) : (s.dropRight p).config.right ≠ some p ∧
    (∀ x, (s.dropRight p).config.store ≠ .writing x (some p)) ∧
    (s.config.right ≠ some q → (s.dropRight p).config.right ≠ some q) ∧
    ((∀ x, s.config.store ≠ .writing x (some q)) → ∀ x, (s.dropRight p).config.store ≠ .writing x (some q)) := by
  refine ⟨?_, fun x hx => ?_, fun h => ?_, fun h x hx => ?_⟩
  · show (if s.config.right = some p then none else s.config.right) ≠ some p
    split
    · nofun
    · assumption
  · simp only [State.dropRight] at hx
    split at hx
    · split at hx
      · cases hx
      · rename_i hne
        cases hx
        exact hne rfl
    · rename_i hno
      exact hno x p hx
  · show (if s.config.right = some p then none else s.config.right) ≠ some q
    split
    · nofun
    · exact h
  · simp only [State.dropRight] at hx
    split at hx
    · rename_i y r hst
      split at hx
      · cases hx
      · cases hx
        exact h x hst
    · exact h x hx

theorem dropRight_noNew (s : State) (p : Port) : NoNewHoldings s (s.dropRight p) :=
  .of_config _ (fun _ => rfl) (fun _ _ => (dropRight_gives s p).2.2.1) fun _ _ => (dropRight_gives s p).2.2.2

/-- The state of a detach before its port's lists are emptied (R153, steps 1 to 4). -/
def State.letAllGo (s : State) (p : Port) : State := (((s.revokeAll p).emptyQueue p).dropPolls p).dropRight p

theorem letAllGo_noNew (s : State) (p : Port) : NoNewHoldings s (s.letAllGo p) :=
  ((((revokeAll_frees s p).1.trans (emptyQueue_empties _ p).1).noNew).trans (dropPolls_noNew _ p)).trans
    (dropRight_noNew _ p)

theorem emptyLists_eng (s : State) (p : Port) (st : PortState) :
    ((s.emptyLists p st).eng p).state = st ∧ ((s.emptyLists p st).eng p).withdrawals = [] := by
  simp [State.emptyLists]

theorem letAllGo_holdsNothing (s : State) (p : Port) (st : PortState) :
    HoldsNothing ((s.letAllGo p).emptyLists p st) p := by
  obtain ⟨-, hoffers, hclaims⟩ := revokeAll_frees s p
  obtain ⟨hless, hqueue⟩ := emptyQueue_empties (s.revokeAll p) p
  obtain ⟨hright, hrecipient, -⟩ := dropRight_gives (q := p) (((s.revokeAll p).emptyQueue p).dropPolls p) p
  exact {
    queue := hqueue
    offers := fun i n hn => by
      by_contra ho
      exact hoffers i (hless.records.offeredTo ⟨n, hn, by simpa using ho⟩)
    claims := fun i n hn hc => hclaims i (hless.records.claimedBy ⟨n, hn, hc⟩)
    polls := Bool.eq_false_iff.mpr fun h => (dropPolls_polled (s := (s.revokeAll p).emptyQueue p) h).1 rfl
    right := hright
    recipient := hrecipient
    withdrawals := (emptyLists_eng _ p st).2 }

/-- A port that holds nothing holds nothing when its lists are emptied. -/
theorem HoldsNothing.emptyLists (h : HoldsNothing s p) (st : PortState) : HoldsNothing (s.emptyLists p st) p := by
  obtain ⟨hqueue, hoffers, hclaims, hpolls, hright, hrecipient, -⟩ := h
  exact ⟨hqueue, hoffers, hclaims, hpolls, hright, hrecipient, (emptyLists_eng s p st).2⟩

/-- What a detach does, whatever the state that the port takes: the others' holdings are in order, and the port holds
nothing. -/
theorem detachEffects_parts (hs : PortOk s p) (st : PortState) :
    ∃ t, NoNewHoldings s t ∧ s.detachEffects p st = t.emptyLists p st ∧ HoldsNothing (t.emptyLists p st) p := by
  unfold State.detachEffects
  split
  · exact ⟨s.letAllGo p, letAllGo_noNew s p, rfl, letAllGo_holdsNothing s p st⟩
  · rename_i hoff
    exact ⟨s, .refl s, rfl, (hs.off (by simpa using hoff)).emptyLists st⟩

theorem detachEffects_portOk (hs : ∀ q, PortOk s q) {st : PortState} (hst : st.isOn = false) (q : Port) :
    PortOk (s.detachEffects p st) q := by
  obtain ⟨t, ht, he, hnothing⟩ := detachEffects_parts (hs p) st
  rw [he]
  by_cases hq : p = q
  · subst hq
    exact .of_nothing (by rw [(emptyLists_eng t p st).1]; exact hst) hnothing
  · exact (ht.portOk (hs q)).congr rfl rfl rfl rfl rfl (by rw [State.emptyLists, State.eng_setEng, if_neg hq])

theorem detachEffects_rest (s : State) (p : Port) (st : PortState) :
    ((s.detachEffects p st).eng p).state = st ∧
      (∀ q, p ≠ q → ((s.detachEffects p st).eng q).state = (s.eng q).state) ∧
      (s.detachEffects p st).stage = s.stage := by
  have hne (t : State) (q : Port) (hq : p ≠ q) : (t.emptyLists p st).eng q = t.eng q := by
    rw [State.emptyLists, State.eng_setEng, if_neg hq]
  refine ⟨?_, fun q hq => ?_, (detachEffects_busKept s p st).stage⟩
  · unfold State.detachEffects
    split <;> exact (emptyLists_eng _ p st).1
  · unfold State.detachEffects
    split
    · rw [hne _ q hq]
      exact (letAllGo_noNew s p).state q
    · rw [hne s q hq]

/-- A port that is not DISABLED is detached (R151, R140). -/
theorem detachEffects_kept (hb : s.stage ≠ .booting) (hon : (s.eng p).state ≠ .disabled) :
    HoldingsKept s (s.detachEffects p .detached) := by
  unfold State.detachEffects
  split
  · have hgo := letAllGo_noNew s p
    exact hgo.kept.trans (setEng_kept (mt hgo.booting.mp hb) (by rw [hgo.state]; exact hon) nofun fun _ =>
      .of_nothing (by rw [State.eng_setEng, if_pos rfl]; rfl) (letAllGo_holdsNothing s p .detached))
  · rename_i hoff
    exact setEng_kept hb hon nofun fun hs =>
      .of_nothing (by rw [State.eng_setEng, if_pos rfl]; rfl) ((hs.off (by simpa using hoff)).emptyLists .detached)

theorem cutLink_noNew (s : State) (p : Port) : NoNewHoldings s (s.cutLink p) := by
  have hsignal (t : State) : NoNewHoldings t (t.setSignalled p 0) := .of_holdings rfl
  have heng : NoNewHoldings s (s.setEng p { s.eng p with
      rx := .hunt
      lost := false
      tx := match (s.eng p).tx with
        | .sending _ => .cutOff
        | tx => tx }) := setEng_noNew rfl rfl
  exact heng.trans (hsignal _)

/-! ### How a request runs (R155, R156) -/

theorem execHead_kept {named : Frame → Bool} {run : Frame → State → State}
    (hrun : ∀ f t, t.mayExecute p = true → HoldingsKept t (run f t)) : HoldingsKept s (s.execHead p named run) := by
  unfold State.execHead
  split
  · rename_i hmay
    split
    · exact .refl s
    · rename_i f rest _
      split
      · have hpopped : NoNewHoldings s (s.popped p rest) := setEng_noNew rfl rfl
        have hmay' : (s.popped p rest).mayExecute p = true := by
          rw [← hmay]
          simp [State.mayExecute, State.popped]
        exact (hpopped.kept.trans (hrun f _ hmay')).trans (settle_noNew _).kept
      · exact .refl s
  · exact .refl s

theorem execKind_kept {k : ReqKind} {named : Frame → Bool} {run : Frame → State → State}
    (hrun : ∀ f t, t.mayExecute p = true → t.decodeCheck p k f = none → HoldingsKept t (run f t)) :
    HoldingsKept s (s.execKind p k named run) := by
  refine execHead_kept fun f t hmay => ?_
  split
  · exact (respond_noNew _ _ _).kept
  · rename_i hc
    exact hrun f t hmay hc

theorem execKind_kept_of_noNew {k : ReqKind} {named : Frame → Bool} {run : Frame → State → State}
    (hrun : ∀ f t, NoNewHoldings t (run f t)) : HoldingsKept s (s.execKind p k named run) :=
  execKind_kept fun f t _ _ => (hrun f t).kept

/-- What the decoding checks ask (R156). -/
theorem admitted_iff (s : State) (p : Port) (k : ReqKind) (f : Frame) : s.decodeCheck p k f = none ↔
    lengthOk k f = true ∧ (s.stage ≠ .running → k.inScanning = true) ∧
      ((s.eng p).state.isOn = false → k.atDetached = true) ∧ argsOk k f = true := by
  unfold State.decodeCheck
  repeat rw [ite_eq_iff]
  simp

theorem on_of_admitted {k : ReqKind} (h : s.decodeCheck p k f = none) (hk : k.atDetached = false) :
    (s.eng p).state.isOn = true := by
  obtain ⟨-, -, hon, -⟩ := (admitted_iff s p k f).mp h
  by_contra hoff
  rw [hon (by simpa using hoff)] at hk
  cases hk

theorem args_of_admitted {k : ReqKind} (h : s.decodeCheck p k f = none) : argsOk k f = true := by
  obtain ⟨-, -, -, ha⟩ := (admitted_iff s p k f).mp h
  exact ha

/-! ### The requests of port states (R150 to R152) -/

/-- ATTACHED and HELD with a window that holds the offers of the port. -/
theorem portOk_of_window {e : PortEngine} (hlow : 1 ≤ e.state.window) (hhigh : e.state.window ≤ 4)
    (ho : s.offerCount p ≤ e.state.window) : PortOk (s.setEng p e) p := by
  have heng : (s.setEng p e).eng p = e := by rw [State.eng_setEng, if_pos rfl]
  refine ⟨fun hoff => ?_, fun _ => ?_⟩
  · rw [heng] at hoff
    cases hst : e.state <;> rw [hst] at hoff hlow
    · exact absurd hlow (by decide)
    · exact absurd hlow (by decide)
    · cases hoff
    · cases hoff
  · rw [heng]
    exact ⟨hlow, hhigh, ho⟩

theorem offerCount_of_nothing (h : HoldsNothing s p) : s.offerCount p = 0 := by
  unfold State.offerCount
  rw [List.length_eq_zero_iff, List.filter_eq_nil_iff]
  intro i _
  cases hn : s.notice i with
  | none => simp
  | some n => simp [h.offers i n hn]

theorem setPortState_kept {st : PortState} (hb : s.stage ≠ .booting) (hon : (s.eng p).state ≠ .disabled)
    (hst : st ≠ .disabled)
    (hw : PortOk s p → 1 ≤ st.window ∧ st.window ≤ 4 ∧ s.offerCount p ≤ st.window) :
    HoldingsKept s (s.setPortState p st) :=
  setEng_kept hb hon hst fun hs => by
    obtain ⟨hlow, hhigh, ho⟩ := hw hs
    exact portOk_of_window hlow hhigh ho

theorem decideAttach_kept (hmay : s.mayExecute p = true) (hc : s.decodeCheck p .attach f = none) :
    HoldingsKept s (s.decideAttach p f) := by
  obtain ⟨hb, hon, -⟩ := (mayExecute_iff s p).mp hmay
  obtain ⟨hlow, hhigh⟩ : 1 ≤ (f.byte 0).toNat ∧ (f.byte 0).toNat ≤ 4 := by
    simpa [argsOk] using args_of_admitted hc
  have hattach (st : PortState) (hst : st ≠ .disabled) (hw : st.window = (f.byte 0).toNat)
      (ho : PortOk s p → s.offerCount p ≤ (f.byte 0).toNat) : HoldingsKept s (s.setPortState p st) :=
    setPortState_kept hb hon hst fun hs => by
      rw [hw]
      exact ⟨hlow, hhigh, ho hs⟩
  unfold State.decideAttach
  dsimp only
  split
  · exact .refl s
  · rename_i hst
    refine (hattach (.attached _) nofun rfl fun hs => ?_).trans
      ((triggerPass_holdLess _).noNew.trans (respond_noNew _ _ _)).kept
    rw [offerCount_of_nothing (hs.off (by rw [hst]; rfl))]
    exact Nat.zero_le _
  · split
    · rename_i hle
      exact (hattach (.attached _) nofun rfl fun _ => hle).trans (respond_noNew _ _ _).kept
    · exact (respond_noNew _ _ _).kept
  · split
    · rename_i hle
      exact (hattach (.held _) nofun rfl fun _ => hle).trans (respond_noNew _ _ _).kept
    · exact (respond_noNew _ _ _).kept

theorem decideDetach_kept (hmay : s.mayExecute p = true) : HoldingsKept s (s.decideDetach p f) := by
  obtain ⟨hb, hon, -⟩ := (mayExecute_iff s p).mp hmay
  exact (detachEffects_kept hb hon).trans ((triggerIf_holdLess _ _).noNew.trans (respond_noNew _ _ _)).kept

/-- HOLD and RESUME leave a port its window. -/
theorem decideHold_kept (hmay : s.mayExecute p = true) : HoldingsKept s (s.decideHold p f) := by
  obtain ⟨hb, hon, -⟩ := (mayExecute_iff s p).mp hmay
  unfold State.decideHold
  split
  · rename_i w hst
    refine (setPortState_kept (st := .held w) hb hon nofun fun hs => ?_).trans (respond_noNew _ _ _).kept
    simpa [hst, PortState.isOn, PortState.window] using hs.window
  · exact (respond_noNew _ _ _).kept

theorem decideResume_kept (hmay : s.mayExecute p = true) : HoldingsKept s (s.decideResume p f) := by
  obtain ⟨hb, hon, -⟩ := (mayExecute_iff s p).mp hmay
  unfold State.decideResume
  split
  · rename_i w hst
    refine (setPortState_kept (st := .attached w) hb hon nofun fun hs => ?_).trans
      ((triggerPass_holdLess _).noNew.trans (respond_noNew _ _ _)).kept
    simpa [hst, PortState.isOn, PortState.window] using hs.window
  · exact (respond_noNew _ _ _).kept

/-! ### CLAIM, RELEASE and CLOSE -/

theorem decideClaim_noNew (s : State) (p : Port) (f : Frame) : NoNewHoldings s (s.decideClaim p f) := by
  unfold State.decideClaim
  split
  · exact respond_noNew _ _ _
  · rename_i n hn
    obtain ⟨hn, -⟩ := named_some hn
    split
    · split <;> exact respond_noNew _ _ _
    · split
      · rename_i ho
        have hclaim := makeClaim_noNew hn ho
        have hown := (makeClaim_made s p f.src n).own
        unfold State.claimOffered
        dsimp only
        generalize s.makeClaim p f.src n = t at hclaim hown ⊢
        split
        · refine (hclaim.trans (modNotice_holdLess fun m hm => ?_).noNew).trans (respond_noNew _ _ _)
          obtain rfl : n.claimedBy p = m := Option.some.inj (hown.symm.trans hm)
          exact ⟨fun _ => id, fun _ => id, fun hb => absurd rfl (hb.2.1 p)⟩
        · exact ((hclaim.trans (closeNotice_noNew t _ _ _)).trans (respond_noNew _ _ _)).trans (arbiter_noNew _)
      · exact respond_noNew _ _ _
    · exact respond_noNew _ _ _

theorem decideRelease_noNew (s : State) (p : Port) (f : Frame) : NoNewHoldings s (s.decideRelease p f) := by
  unfold State.decideRelease
  split
  · exact respond_noNew _ _ _
  · rename_i n hn
    obtain ⟨hn, -⟩ := named_some hn
    split
    · refine ((setNotice_holdLess fun m hm => ?_).noNew.trans (respond_noNew _ _ _)).trans (walk_holdLess _ _).noNew
      cases hm
      exact .inr ⟨n, hn, fun _ => id, nofun, fun hb => ⟨hb.1, nofun, hb.2.2.1, rfl⟩⟩
    · exact respond_noNew _ _ _

theorem decideClose_noNew (s : State) (p : Port) (f : Frame) : NoNewHoldings s (s.decideClose p f) := by
  unfold State.decideClose
  split
  · exact respond_noNew _ _ _
  · split
    · exact ((closeNotice_noNew s _ _ _).trans (respond_noNew _ _ _)).trans (arbiter_noNew _)
    · exact respond_noNew _ _ _

/-! ### POLL, RESUME_FIELD, the right and the store -/

/-- A port that asks for a poll is ATTACHED or HELD (R156). -/
theorem decidePoll_noNew (hon : (s.eng p).state.isOn = true) : NoNewHoldings s (s.decidePoll p f) := by
  have hother {q : Port} (hoff : (s.eng q).state.isOn = false) : p ≠ q := by
    rintro rfl
    rw [hon] at hoff
    cases hoff
  unfold State.decidePoll
  dsimp only
  split
  · exact (lineQuery_noNew s _).trans (respond_noNew _ _ _)
  · split
    · exact respond_noNew _ _ _
    · split
      · refine setBus_noNew fun q hoff h => ?_
        rw [pollOutstanding_iff] at h ⊢
        refine h.imp ?_ id
        rintro ⟨e, he, hq⟩
        obtain ⟨x, hx, rfl⟩ := List.mem_map.mp he
        refine ⟨x, hx, ?_⟩
        split at hq
        · simpa [hother hoff] using hq
        · exact hq
      · refine (setBus_noNew fun q hoff h => ?_).trans (arbiter_noNew _)
        rw [pollOutstanding_iff] at h ⊢
        refine h.imp ?_ id
        rintro ⟨e, he, hq⟩
        rcases List.mem_append.mp he with he | he
        · exact ⟨e, he, hq⟩
        · rw [List.mem_singleton] at he
          subst he
          simp [hother hoff] at hq

theorem decideResumeField_noNew (s : State) (p : Port) (fatLow : Bool) (f : Frame) :
    NoNewHoldings s (s.decideResumeField p fatLow f) := by
  have hlift : NoNewHoldings s (s.setBus { s.bus with bidRun := 0, suspended := false }) := .of_holdings rfl
  have hsample (t : State) : NoNewHoldings t (t.sampleFat fatLow) := .of_holdings rfl
  have hanswered := hlift.trans (respond_noNew _ p (f.answer .ok []))
  unfold State.decideResumeField
  dsimp only
  split
  · exact (hanswered.trans (hsample _)).trans (arbiter_noNew _)
  · exact hanswered

/-- The right, or a STORE's response, goes to a port that is ATTACHED or HELD (R153, R177, R179). -/
theorem of_config_for {c : ConfigUnit} (hon : (s.eng p).state.isOn = true) (ht : c.tables = s.config.tables)
    (hright : c.right = s.config.right ∨ c.right = some p)
    (hstore : c.store = s.config.store ∨ ∃ x, c.store = .writing x (some p)) :
    NoNewHoldings s { s with config := c } := by
  have hother {q : Port} (hoff : (s.eng q).state.isOn = false) : p ≠ q := by
    rintro rfl
    rw [hon] at hoff
    cases hoff
  refine .of_config c (fun q => by rw [ht]; rfl) (fun q hoff h => ?_) fun q hoff h x => ?_
  · rcases hright with hr | hr <;> rw [hr]
    · exact h
    · exact mt Option.some.inj (hother hoff)
  · rcases hstore with hr | ⟨y, hr⟩ <;> rw [hr]
    · exact h x
    · intro hx
      cases hx
      exact hother hoff rfl

theorem decideTakeRight_noNew (hon : (s.eng p).state.isOn = true) : NoNewHoldings s (s.decideTakeRight p f) := by
  have htake : NoNewHoldings s (s.setRight (some p)) := of_config_for hon rfl (.inr rfl) (.inl rfl)
  unfold State.decideTakeRight
  split
  · exact htake.trans (respond_noNew _ _ _)
  · split <;> exact respond_noNew _ _ _

theorem decideGiveRight_noNew (s : State) (p : Port) (f : Frame) : NoNewHoldings s (s.decideGiveRight p f) := by
  have hgive : NoNewHoldings s (s.setRight none) := .of_config _ (fun _ => rfl) (fun _ _ _ => nofun) fun _ _ => id
  unfold State.decideGiveRight
  split
  · exact hgive.trans (respond_noNew _ _ _)
  · exact respond_noNew _ _ _

theorem decideStore_noNew (hon : (s.eng p).state.isOn = true) : NoNewHoldings s (s.decideStore p f) := by
  unfold State.decideStore
  split
  · exact respond_noNew _ _ _
  · split
    · exact respond_noNew _ _ _
    · exact of_config_for hon rfl (.inl rfl) (.inr ⟨_, rfl⟩)

/-- The end of a write names no port. -/
theorem storeIdle_noNew (s : State) (image : StoreImage) (blank fault : Bool) :
    NoNewHoldings s { s with
      config := { s.config with store := .idle, image := image, storeBlank := blank, storeFault := fault } } :=
  .of_config _ (fun _ => rfl) (fun _ _ => id) fun _ _ _ _ h => StoreState.noConfusion h

theorem completeStore_noNew (s : State) (t : Tables) (dest : Option Port) (content : List Byte) (check : BitVec 16) :
    NoNewHoldings s (s.completeStore t dest content check) := by
  have hlatch (old u : State) : NoNewHoldings u (State.latchRisen old u) := .of_holdings rfl
  have hlatched := (storeIdle_noNew s ⟨storeVerified t content check, content, check⟩
    (s.config.storeBlank && !storeVerified t content check) !storeVerified t content check).trans (hlatch s _)
  unfold State.completeStore
  dsimp only
  split
  · exact hlatched.trans (respond_noNew _ _ _)
  · exact hlatched

end Sys2Proof.Machine

/-! SUPPORT. Writes, CLEAR_ALL, start-up, the links and the timers keep the two invariants of holdings. -/

namespace Sys2Proof.Machine

variable {s t u : State} {i : Src} {n m : Notice} {p q : Port} {f : Frame}

/-! ### Outside BOOTING the ports that hold are the enabled ones (R147, R149) -/

/-- What `HoldingsOk` says of the entry of one port after the boot load. -/
def EntryOk (s : State) (p : Port) : Prop := (s.portCfg p).enabled = true ↔ (s.eng p).state ≠ .disabled

theorem HoldingsOk.of_ports (hb : s.stage ≠ .booting) (hp : ∀ p, PortOk s p) (he : ∀ p, EntryOk s p) : HoldingsOk s :=
  ⟨fun p => (hp p).off, fun p => (hp p).window, fun h => absurd h hb, fun _ => he⟩

theorem EntryOk.congr (h : EntryOk s p) (hen : (t.portCfg p).enabled = (s.portCfg p).enabled)
    (hst : (t.eng p).state = (s.eng p).state) : EntryOk t p := by
  unfold EntryOk
  rw [hen, hst]
  exact h

theorem NoNewHoldings.entryOk (h : NoNewHoldings s t) (hs : EntryOk s p) : EntryOk t p :=
  hs.congr (h.enabled p) (h.state p)

/-! ### PORT writes (R80, R81, R149, R176) -/

theorem setPortCfg_noNew {c : PortCfg} (h : c.enabled = (s.portCfg p).enabled) :
    NoNewHoldings s (s.setPortCfg p c) := by
  refine .of_config _ (fun q => ?_) (fun _ _ => id) fun _ _ => id
  show ((s.setPortCfg p c).portCfg q).enabled = _
  rw [State.portCfg_setPortCfg]
  split
  · subst_vars
    exact h
  · rfl

theorem setBacklog_noNew (s : State) (q : Port) (limit : Byte) : NoNewHoldings s (s.setBacklog q limit) := by
  have hlatch (old u : State) : NoNewHoldings u (State.latchRisen old u) := .of_holdings rfl
  have hlimit : NoNewHoldings s (s.setPortCfg q { s.portCfg q with backlog := limit }) := setPortCfg_noNew rfl
  have hcut : NoNewHoldings s (s.cutQueue q limit) :=
    (hlimit.trans (setQueue_holdLess (.inr fun h => by
      rw [show s.queue q = [] from h]
      exact List.take_nil)).noNew).trans (hlatch s _)
  rw [setBacklog_eq]
  exact hcut.trans (NoticesHoldLess.foldl (fun t i => evict_holdLess t q i) _ _).noNew

theorem pendRate_noNew (s : State) (q : Port) (rate : LinkRate) (own : Bool) :
    NoNewHoldings s (s.pendRate q rate own) :=
  setEng_noNew rfl rfl

/-- A port with its Enabled field going from `old` to `new` (R149). -/
def State.switchPort (s : State) (q : Port) (old new : Bool) : State :=
  if old && !new then s.disablePort q else if !old && new then s.enablePort q else s

/-- A switch leaves the entries and the states of the other ports, and the ports hold what they may. -/
structure Switched (s t : State) (q : Port) (new : Bool) : Prop where
  ports : ∀ r, PortOk t r
  stage : t.stage = s.stage
  entries : ∀ r, t.portCfg r = s.portCfg r
  others : ∀ r, q ≠ r → (t.eng r).state = (s.eng r).state
  own : new = true ↔ (t.eng q).state ≠ .disabled

theorem disablePort_switched (hs : ∀ r, PortOk s r) (q : Port) : Switched s (s.disablePort q) q false := by
  have hcut := cutLink_noNew (s.detachEffects q .disabled) q
  obtain ⟨hown, hothers, hstage⟩ := detachEffects_rest s q .disabled
  refine ⟨fun r => hcut.portOk (detachEffects_portOk hs rfl r), hstage,
    fun r => detachEffects_portCfg s q .disabled r, fun r hr => (hcut.state r).trans (hothers r hr), ?_⟩
  have hdisabled : ((s.disablePort q).eng q).state = .disabled := (hcut.state q).trans hown
  simp [hdisabled]

/-- A port that was DISABLED holds nothing, and nothing when it is enabled. -/
theorem enablePort_switched (hs : ∀ r, PortOk s r) (hoff : (s.eng q).state = .disabled) :
    Switched s (s.enablePort q) q true := by
  have hown : ((s.enablePort q).eng q).state = .detached := by simp [State.enablePort]
  have hne (r : Port) (hr : q ≠ r) : (s.enablePort q).eng r = s.eng r := by
    rw [State.enablePort, State.eng_setEng, if_neg hr]
  refine ⟨fun r => ?_, rfl, fun _ => rfl, fun r hr => by rw [hne r hr], by simp [hown]⟩
  by_cases hr : q = r
  · subst hr
    obtain ⟨hqueue, hoffers, hclaims, hpolls, hright, hrecipient, -⟩ := (hs q).off (by rw [hoff]; rfl)
    exact .of_nothing (by rw [hown]; rfl)
      ⟨hqueue, hoffers, hclaims, hpolls, hright, hrecipient, by simp [State.enablePort]⟩
  · exact (hs r).congr rfl rfl rfl rfl rfl (hne r hr)

theorem switchPort_switched (hs : ∀ r, PortOk s r) (hq : EntryOk s q) (new : Bool) :
    Switched s (s.switchPort q (s.portCfg q).enabled new) q new := by
  have hstays (h : new = (s.portCfg q).enabled) : Switched s s q new :=
    ⟨hs, rfl, fun _ => rfl, fun _ _ => rfl, by rw [h]; exact hq⟩
  unfold State.switchPort
  cases hold : (s.portCfg q).enabled <;> cases new
  · exact hstays hold.symm
  · refine enablePort_switched hs ?_
    by_contra hne
    rw [hq.mpr hne] at hold
    cases hold
  · exact disablePort_switched hs q
  · exact hstays hold.symm

theorem writePort_holdingsOk (hb : s.stage ≠ .booting) (hs : HoldingsOk s) (p q : Port) (new : PortCfg) :
    HoldingsOk (s.writePort p q new) := by
  have hswitch := switchPort_switched (fun r => hs.portOk r) (hs.enabled hb q) new.enabled
  show HoldingsOk (State.triggerIf (let t := (let t := s.switchPort q (s.portCfg q).enabled new.enabled
    if (s.portCfg q).backlog = new.backlog then t else t.setBacklog q new.backlog).setPortCfg q new
    if (s.portCfg q).rate = new.rate then t else t.pendRate q new.rate (decide (p = q))) _)
  generalize s.switchPort q (s.portCfg q).enabled new.enabled = t at hswitch
  dsimp only
  have hlimit : NoNewHoldings t (if (s.portCfg q).backlog = new.backlog then t else t.setBacklog q new.backlog) := by
    split
    · exact .refl t
    · exact setBacklog_noNew t q _
  generalize (if (s.portCfg q).backlog = new.backlog then t else t.setBacklog q new.backlog) = u at hlimit
  have hrate : NoNewHoldings (u.setPortCfg q new) (if (s.portCfg q).rate = new.rate then u.setPortCfg q new
      else (u.setPortCfg q new).pendRate q new.rate (decide (p = q))) := by
    split
    · exact .refl _
    · exact pendRate_noNew _ _ _ _
  have hend := hrate.trans (triggerIf_holdLess _ ((s.portCfg q).enabled != new.enabled ||
    (s.portCfg q).classFilter != new.classFilter || (s.portCfg q).backlog != new.backlog)).noNew
  refine .of_ports (mt hend.booting.mp ?_)
    (fun r => hend.portOk ((hlimit.portOk (hswitch.ports r)).congr rfl rfl rfl rfl rfl rfl))
    fun r => hend.entryOk ?_
  · exact mt hlimit.booting.mp (hswitch.stage ▸ hb)
  · by_cases hr : q = r
    · subst hr
      show ((u.setPortCfg q new).portCfg q).enabled = true ↔ (u.eng q).state ≠ .disabled
      rw [State.portCfg_setPortCfg, if_pos rfl, hlimit.state]
      exact hswitch.own
    · have hstands : EntryOk t r := EntryOk.congr (hs.enabled hb r) (by rw [hswitch.entries]) (hswitch.others r hr)
      exact (hlimit.entryOk hstands).congr (by rw [State.portCfg_setPortCfg, if_neg hr]) rfl

theorem writePort_stage (s : State) (p q : Port) (new : PortCfg) : (s.writePort p q new).stage = s.stage :=
  (writePort_busKept s p q new).stage

/-! ### The other writes (R4, R73, R78, R174) -/

/-- A discarded clear leaves the polls. -/
theorem discardClear_polled {b : FieldBus} (hq : b.pollQueue = s.bus.pollQueue)
    (hst : b.state = s.bus.state.discardClear i) : NoNewHoldings s (s.setBus b) := setBus_noNew fun p _ h => by
  rw [pollOutstanding_iff] at h ⊢
  rw [State.bus_setBus, hq, hst] at h
  refine h.imp id ?_
  rintro ⟨g, e, hg, hw, he⟩
  unfold BusState.discardClear at hg
  split at hg
  · split at hg
    · cases hg
      cases hw
    · exact ⟨g, e, hg, hw, he⟩
  · exact ⟨g, e, hg, hw, he⟩

theorem disableSource_noNew (s : State) (i : Src) : NoNewHoldings s (s.disableSource i) := by
  have hend := endNotice_noNew s i (some .disabled)
  unfold State.disableSource
  dsimp only
  generalize s.endNotice i (some .disabled) = t at hend ⊢
  have hbus := hend.trans (discardClear_polled (s := t) (i := i) (b := { t.bus with
    clearList := t.bus.clearList.filter (fun e => e.src != i), state := t.bus.state.discardClear i }) rfl rfl)
  have hsrc := hbus.trans (setSrc_noNew _ i { t.src i with
    state := .disabled, arrears := 0, code15 := false, failures := 0, reach := .reachable })
  split
  · exact hsrc.trans (setLine_noNew _ _ _)
  · exact hsrc

theorem enableSource_noNew (s : State) (i : Src) : NoNewHoldings s (s.enableSource i) := by
  have hsrc := setSrc_noNew s i { s.src i with
    state := .quiet, arrears := 0, code15 := false, failures := 0, reach := .reachable }
  unfold State.enableSource
  dsimp only
  generalize s.setSrc i _ = t at hsrc ⊢
  split
  · split
    · exact (hsrc.trans (setLine_noNew _ _ _)).trans (reportArrival_noNew _ _ _)
    · exact hsrc
  · exact hsrc

theorem writeSource_noNew (s : State) (i : Src) (new : SourceCfg) : NoNewHoldings s (s.writeSource i new) := by
  have hcfg (t : State) (c : SourceCfg) : NoNewHoldings t (t.setCfg i c) := .of_holdings rfl
  have hdisable : NoNewHoldings s (if (s.cfg i).enabled && !new.enabled then s.disableSource i else s) := by
    split
    · exact disableSource_noNew s i
    · exact .refl s
  unfold State.writeSource
  dsimp only
  generalize (if (s.cfg i).enabled && !new.enabled then s.disableSource i else s) = t at hdisable ⊢
  refine NoNewHoldings.trans ?_ (triggerIf_holdLess _ _).noNew
  split
  · exact (hdisable.trans (hcfg t new)).trans (enableSource_noNew _ i)
  · exact hdisable.trans (hcfg t new)

theorem reorderQueues_holdLess (s : State) : NoticesHoldLess s s.reorderQueues :=
  .of_eq rfl (fun _ => rfl) fun p h => by
    have hq : s.reorderQueues.queue p = sortByKey s.queueKey (s.queue p) := PerPort.get_build _ p
    rw [hq, h]
    rfl

theorem writeRank_noNew (s : State) (order : List (Fin 8)) : NoNewHoldings s (s.writeRank order) := by
  have horder : NoNewHoldings s { s with config := { s.config with
    tables := { s.config.tables with order := order } } } := .of_holdings rfl
  unfold State.writeRank
  split
  · exact .refl s
  · exact horder.trans (reorderQueues_holdLess _).noNew

/-- A write in RUNNING. -/
theorem applyWrite_kept (hr : s.stage = .running) (h : s.applyWrite p f = some t) : HoldingsKept s t := by
  have hcls (k : Fin 8) (c : ClassCfg) : NoNewHoldings s (s.setClsCfg k c) := .of_holdings rfl
  have hdevice (d : DeviceCfg) : NoNewHoldings s (s.writeDevice d) := .of_holdings rfl
  unfold State.applyWrite at h
  dsimp only at h
  split at h
  · obtain ⟨i, -, h⟩ := Option.bind_eq_some_iff.mp h
    obtain ⟨new, -, rfl⟩ := Option.map_eq_some_iff.mp h
    exact (writeSource_noNew s i new).kept
  · obtain ⟨new, -, rfl⟩ := Option.map_eq_some_iff.mp h
    exact (hcls _ new).kept
  · obtain ⟨new, -, rfl⟩ := Option.map_eq_some_iff.mp h
    exact (writeRank_noNew s new).kept
  · obtain ⟨q, -, h⟩ := Option.bind_eq_some_iff.mp h
    obtain ⟨new, -, rfl⟩ := Option.map_eq_some_iff.mp h
    exact ⟨fun hs => writePort_holdingsOk (by rw [hr]; decide) hs p q new,
      fun _ hno => absurd ((writePort_stage s p q new).trans hr) hno⟩
  · obtain ⟨new, -, rfl⟩ := Option.map_eq_some_iff.mp h
    exact (hdevice new).kept
  · cases h

theorem decideWrite_kept (hr : s.stage = .running) : HoldingsKept s (s.decideWrite p f) := by
  unfold State.decideWrite
  dsimp only
  split
  · exact (respond_noNew _ _ _).kept
  · split
    · exact (respond_noNew _ _ _).kept
    · split
      · exact (respond_noNew _ _ _).kept
      · rename_i t ht
        refine (applyWrite_kept hr ht).trans ?_
        unfold State.respondIfOn
        split
        · exact .refl t
        · exact (respond_noNew _ _ _).kept

theorem execWrite_kept (s : State) (p : Port) (row : Frame → Bool) : HoldingsKept s (s.execWrite p row) :=
  execKind_kept fun _ _ _ hc => decideWrite_kept (running_of_admitted hc rfl)

/-! ### CLEAR_ALL (R45, R66, R189) -/

theorem endAllNotices_noNew (s : State) : NoNewHoldings s s.endAllNotices := by
  have hspend (l : List Src) : NoNewHoldings s (s.spendFree l) := .of_holdings rfl
  have hpass (t : State) : NoNewHoldings t (t.setPass [] false) := .of_holdings rfl
  exact ((hspend _).trans (.foldl (fun t i => endNotice_noNew t i _) _ _)).trans (hpass _)

theorem clearSources_noNew (s : State) : NoNewHoldings s s.clearSources := .of_holdings rfl

theorem cancelPoll_noNew (s : State) (e : PollEntry) : NoNewHoldings s (s.cancelPoll e) :=
  .foldl (fun t p => respond_noNew t p _) _ s

theorem cancelPoll_bus (s : State) (e : PollEntry) : (s.cancelPoll e).bus = s.bus :=
  (offEngines_fields (cancelPoll_offEngines s e)).2.2.2.2.1

/-- Work that CLEAR_ALL takes off the bus leaves no port a poll that it had not. -/
theorem cancelBusWork_noNew (s : State) : NoNewHoldings s s.cancelBusWork := by
  have hfold : NoNewHoldings s (s.bus.pollQueue.foldl (fun t e => t.cancelPoll e) s) := .foldl cancelPoll_noNew _ s
  have hbus : (s.bus.pollQueue.foldl (fun t e => t.cancelPoll e) s).bus = s.bus :=
    foldl_keeps State.bus _ cancelPoll_bus _ s
  unfold State.cancelBusWork
  dsimp only
  generalize s.bus.pollQueue.foldl (fun t e => t.cancelPoll e) s = t at hfold hbus
  have hempty : NoNewHoldings t (t.setBus { t.bus with clearList := [], pollQueue := [] }) :=
    setBus_noNew fun p _ h => by
      rw [pollOutstanding_iff] at h ⊢
      exact .inr (h.resolve_left fun ⟨_, he, _⟩ => List.not_mem_nil he)
  have hmark (v : State) (g : InFlight) (hg : ∀ e p, g.work = .poll e → e.requesters.has p = true →
      v.pollOutstanding p = true) : NoNewHoldings v (v.setBus { v.bus with state := .inFlight g }) :=
    setBus_noNew fun p _ h => by
      rw [pollOutstanding_iff] at h
      rcases h with h | ⟨_, e, hst, hw, he⟩
      · exact (pollOutstanding_iff v p).mpr (.inl h)
      · cases hst
        exact hg e p hw he
  have hemptied := hfold.trans hempty
  split
  · rename_i g hst
    split
    · refine (hemptied.trans (cancelPoll_noNew _ _)).trans (hmark _ _ fun e p hw he => ?_)
      cases hw
      rw [PortSet.has_empty] at he
      cases he
    · refine hemptied.trans (hmark _ _ fun e p hw he => ?_)
      exact (pollOutstanding_iff _ p).mpr (.inr ⟨g, e, hbus ▸ hst, hw, he⟩)
  · exact hemptied

/-- The lines are queried and the arbiter chooses, in SCANNING (R186). -/
theorem beginScan_noNew (s : State) : NoNewHoldings { s with stage := .scanning } s.beginScan := by
  have hcursor (t : State) : NoNewHoldings t (t.setBus { t.bus with cursor := 1, attempts := 0 }) := .of_holdings rfl
  have hlines := NoNewHoldings.foldl lineQuery_noNew (List.finRange 8) { s with stage := .scanning }
  unfold State.beginScan
  dsimp only
  generalize (List.finRange 8).foldl (fun t k => t.lineQuery k) { s with stage := .scanning } = t at hlines ⊢
  exact (hlines.trans (hcursor t)).trans (arbiter_noNew _)

/-- A scan begins with no notice. -/
theorem beginScan_kept (hb : s.stage ≠ .booting) (hn : ∀ i, s.notice i = none) : HoldingsKept s s.beginScan := by
  refine HoldingsKept.trans ⟨fun hs => ?_, fun _ _ i n h => ?_⟩ (beginScan_noNew s).kept
  · exact .of_ports (fun h => Stage.noConfusion h) (fun p => (hs.portOk p).congr rfl rfl rfl rfl rfl rfl)
      (hs.enabled hb)
  · exact absurd ((hn i).symm.trans h) nofun

theorem acceptClearAll_kept (hb : s.stage ≠ .booting) : HoldingsKept s (s.acceptClearAll p f) := by
  have hcleared := (endAllNotices_noNew s).trans (clearSources_noNew _)
  have hdone := (hcleared.trans (cancelBusWork_noNew _)).trans (respond_noNew _ p (f.answer .ok []))
  refine hdone.kept.trans (beginScan_kept (mt hdone.booting.mp hb) fun i => ?_)
  have hboard := board_isSome (cancelBusWork_board s.endAllNotices.clearSources) i
  have hnone : s.endAllNotices.clearSources.notice i = none := endAllNotices_notice s i
  rw [hnone] at hboard
  exact Option.not_isSome_iff_eq_none.mp (Bool.eq_false_iff.mp hboard)

/-! ### Start-up (R147, R184, R185) -/

theorem fullReset_holdingsOk (s : State) : HoldingsOk s.fullReset := by
  have heng (p : Port) : s.fullReset.eng p = PortEngine.reset := PerPort.get_all _ p
  have hright : s.fullReset.config.right = none := rfl
  have hstore : s.fullReset.config.store = .idle := rfl
  have hnothing (p : Port) : HoldsNothing s.fullReset p := {
    queue := queue_reset s p
    offers := fun i n h => by
      rw [notice_reset] at h
      cases h
    claims := fun i n h => by
      rw [notice_reset] at h
      cases h
    polls := rfl
    right := by simp [hright]
    recipient := by simp [hstore]
    withdrawals := by
      rw [heng]
      rfl }
  refine ⟨fun p _ => hnothing p, fun p hon => ?_, fun _ p => ?_, fun hb => absurd rfl hb⟩
  · rw [heng] at hon
    exact absurd hon (by decide)
  · rw [heng]
    rfl

theorem fullReset_kept (s : State) : HoldingsKept s s.fullReset where
  ports _ := fullReset_holdingsOk s
  bare _ _ i n h := by
    rw [notice_reset] at h
    cases h

theorem loadTables_parts (s : State) : s.loadTables.notices = s.notices ∧ s.loadTables.delivery = s.delivery ∧
    s.loadTables.bus = s.bus ∧ s.loadTables.config.right = s.config.right ∧
    s.loadTables.config.store = s.config.store := by
  unfold State.loadTables
  split <;> exact ⟨rfl, rfl, rfl, rfl, rfl⟩

/-- The ports start with what they had in BOOTING, which is nothing. -/
theorem bootLoad_kept (hb : s.stage = .booting) (fatLow : Bool) : HoldingsKept s
    { s.loadTables.startSources.startPorts.latchPresent.sampleFat fatLow with stage := .scanning } := by
  obtain ⟨hnotices, hdelivery, hbus, hright, hstore⟩ := loadTables_parts s
  generalize s.loadTables = t at *
  have heng (p : Port) : t.startSources.startPorts.eng p = { PortEngine.reset with
      state := if (t.portCfg p).enabled then .detached else .disabled, rate := (t.portCfg p).rate } :=
    PerPort.get_build _ p
  refine ⟨fun hs => .of_ports (fun h => Stage.noConfusion h) (fun p => .of_nothing ?_ ?_) fun p => ?_,
    fun hs _ i n hn => ?_⟩
  · show (t.startSources.startPorts.eng p).state.isOn = false
    rw [heng]
    cases (t.portCfg p).enabled <;> rfl
  · obtain ⟨hqueue, hoffers, hclaims, hpolls, hr, hrecipient, -⟩ := hs.off p (by rw [hs.booting hb p]; rfl)
    exact {
      queue := by
        show t.queue p = []
        simpa only [State.queue, hdelivery] using hqueue
      offers := by
        show ∀ i n, t.notice i = some n → _
        simpa only [State.notice, hnotices] using hoffers
      claims := by
        show ∀ i n, t.notice i = some n → _
        simpa only [State.notice, hnotices] using hclaims
      polls := by
        show t.pollOutstanding p = false
        simpa only [State.pollOutstanding, hbus] using hpolls
      right := hright ▸ hr
      recipient := hstore ▸ hrecipient
      withdrawals := by
        show (t.startSources.startPorts.eng p).withdrawals = []
        rw [heng]
        rfl }
  · show (t.portCfg p).enabled = true ↔ (t.startSources.startPorts.eng p).state ≠ .disabled
    rw [heng]
    cases (t.portCfg p).enabled <;> simp
  · refine hs (by rw [hb]; decide) i n ?_
    rw [← hn, State.notice, ← hnotices]
    rfl

/-! ### The timers (R97, R116, R119, R124) -/

theorem tickTimers_holdLess (s : State) : NoticesHoldLess s s.tickTimers := by
  refine ⟨rfl, fun j m hm => ?_, fun _ _ => id⟩
  have hrecord : s.tickTimers.notice j = (s.notice j).map Notice.tick := tabulate_get _ j
  rw [hrecord, Option.map_eq_some_iff] at hm
  obtain ⟨n, hn, rfl⟩ := hm
  refine .inr ⟨n, hn, fun _ => id, fun _ => id, fun ⟨ho, hc, ht, hv⟩ => ⟨ho, hc, PerPort.ext_get fun p => ?_, ?_⟩⟩
  · show (PerPort.build _).get p = _
    rw [PerPort.get_build, ht, PerPort.get_all]
    rfl
  · show n.serviceTimer.map _ = none
    rw [hv]
    rfl

/-- A timer starts for an offer that stands. -/
theorem startOfferTimer_holdLess (s : State) (p : Port) (info : NoticeInfo) :
    NoticesHoldLess s (s.startOfferTimer p info) := modNotice_holdLess fun n _ => by
  split
  · rename_i h
    obtain ⟨-, ho, -⟩ := h
    exact ⟨fun _ => id, fun _ => id, fun hb => by rw [hb.not_offered p] at ho; cases ho⟩
  · exact .refl n

theorem frameEnded_noNew (s : State) (p : Port) (x : TxFrame) : NoNewHoldings s (s.frameEnded p x) := by
  have hclear (t : State) : NoNewHoldings t (t.autoClear p) := .of_holdings rfl
  have hrate : NoNewHoldings s (s.setEng p { s.eng p with ratePending := rateSent (s.eng p).ratePending }) :=
    setEng_noNew rfl rfl
  have hend (t : State) : NoNewHoldings t ((t.autoClear p).setEng p { t.eng p with tx := .idle }) :=
    (hclear t).trans (setEng_noNew rfl rfl)
  unfold State.frameEnded
  dsimp only
  split
  · exact (startOfferTimer_holdLess s p _).noNew.trans (hend _)
  · exact hrate.trans (hend _)
  · exact hend s

theorem expireOffer_noNew (hn : s.notice i = some n) (ho : n.offers.has p = true) :
    NoNewHoldings s (s.expireOffer p i n) :=
  ((dropOffer_holdLess s p i).noNew.withdraw (not_holdsNothing_of_offer hn ho) _).trans (walkIfBare_holdLess _ i).noNew

theorem expireService_noNew (hn : s.notice i = some n) (hc : n.state = .claimed p) :
    NoNewHoldings s (s.expireService p i n) := by
  have hoccur (t : State) : NoNewHoldings t (t.occur p Cond.takeover) := .of_holdings rfl
  exact (((revokeClaim_holdLess s p i).noNew.withdraw (not_holdsNothing_of_claim hn hc) _).trans (hoccur _)).trans
    (walk_holdLess _ i).noNew

/-! ### The links (R133 to R140) -/

theorem linkError_noNew (s : State) (p : Port) (k : ErrorKind) (rx : Receiver) :
    NoNewHoldings s (s.linkError p k rx) := by
  have hoccur (t : State) : NoNewHoldings t (t.occur p Cond.linkFault) := .of_holdings rfl
  have heng : NoNewHoldings s (s.setEng p { s.eng p with
    errors := ErrorCounts.bump (s.eng p).errors k, lost := true, rx := rx }) := setEng_noNew rfl rfl
  exact heng.trans (hoccur _)

theorem setRx_noNew (s : State) (p : Port) (rx : Receiver) : NoNewHoldings s (s.setRx p rx) := setEng_noNew rfl rfl

theorem takeByte_noNew (s : State) (p : Port) (chars : List Byte) (b : Byte) :
    NoNewHoldings s (s.takeByte p chars b) := by
  unfold State.takeByte State.offerFrame
  dsimp only
  split
  · exact setRx_noNew s p _
  · exact linkError_noNew s p _ _
  · split
    · exact setEng_noNew rfl rfl
    · exact linkError_noNew s p _ _
  · exact linkError_noNew s p _ _

theorem takeChar_noNew (s : State) (p : Port) (chars : List Byte) (c : LinkChar) :
    NoNewHoldings s (s.takeChar p chars c) := by
  unfold State.takeChar
  split
  · exact setRx_noNew s p _
  · split
    · exact linkError_noNew s p _ _
    · exact linkError_noNew s p _ _
    · exact takeByte_noNew s p chars _

theorem listens_iff (s : State) (p : Port) : s.listens p = true ↔
    s.stage ≠ .booting ∧ (s.eng p).state ≠ .disabled := by
  simp [State.listens]

theorem breakPort_kept (h : s.listens p = true) : HoldingsKept s (s.breakPort p) := by
  obtain ⟨hb, hon⟩ := (listens_iff s p).mp h
  exact (detachEffects_kept hb hon).trans ((cutLink_noNew _ p).trans (triggerIf_holdLess _ _).noNew).kept

end Sys2Proof.Machine

/-! Every step keeps the holdings with the attached ports (R92, R93, R116, R153). -/

namespace Sys2Proof.Machine

variable {s t : State} {p : Port}

/-! ### The ends of transactions -/

theorem bidEffect_noNew (s : State) (g : InFlight) (o : BidOutcome) : NoNewHoldings s (s.bidEffect g o) := by
  have hrun (t : State) : NoNewHoldings t (t.setBus { t.bus with bidRun := 0 }) := .of_holdings rfl
  unfold State.bidEffect
  cases o with
  | won i r => exact (handOutcome_noNew s g i (.replied r)).trans (hrun _)
  | garbled i => exact (handOutcome_noNew s g i .badCheck).trans (bidFailed_noNew _)
  | stray => exact bidFailed_noNew s
  | empty => exact bidFailed_noNew s

theorem execBidRoundEnd_noNew {address : BitVec 6} {report : BitVec 16} {check : BitVec 8}
    (ht : execBidRoundEnd address report check s = .next t) : NoNewHoldings s t := by
  cases ht
  split
  · split
    · exact ((endTransaction_noNew s _ _ _).trans (bidEffect_noNew _ _ _)).trans (settle_noNew _)
    · exact .refl s
  · exact .refl s

theorem execPollEnd_noNew {reply : Option FieldReply} (ht : execPollEnd reply s = .next t) : NoNewHoldings s t := by
  cases ht
  split
  · split
    · exact (((endTransaction_noNew s _ _ _).trans (handOutcome_noNew _ _ _ _)).trans
        (.foldl (fun u p => respond_noNew u p _) _ _)).trans (settle_noNew _)
    · exact .refl s
  · exact .refl s

theorem execClearEnd_noNew {reply : Option FieldReply} (ht : execClearEnd reply s = .next t) : NoNewHoldings s t := by
  cases ht
  split
  · split
    · refine NoNewHoldings.trans ?_ (settle_noNew _)
      split
      · exact endTransaction_noNew s _ _ _
      · split
        · exact (endTransaction_noNew s _ _ _).trans (handOutcome_noNew _ _ _ _)
        · exact (endTransaction_noNew s _ _ _).trans (clearEffect_noNew _ _ _)
    · exact .refl s
  · exact .refl s

theorem execScanStepEnd_noNew {reply : Option FieldReply} (ht : execScanStepEnd reply s = .next t) :
    NoNewHoldings s t := by
  cases ht
  split
  · split
    · exact (((endTransaction_noNew s _ _ _).trans (handOutcome_noNew _ _ _ _)).trans (moveCursor_noNew _ _)).trans
        (settle_noNew _)
    · exact .refl s
  · exact .refl s

/-! ### Start-up, the lines and the timers -/

theorem execBootLoadComplete_kept {fatLow : Bool} (ht : execBootLoadComplete fatLow s = .next t) :
    HoldingsKept s t := by
  cases ht
  split
  · rename_i hb
    exact (bootLoad_kept hb fatLow).trans ((beginScan_noNew _).trans (settle_noNew _)).kept
  · exact .refl s

theorem execLineSample_noNew {levels : BitVec 8} (ht : execLineSample levels s = .next t) : NoNewHoldings s t := by
  have hsample (u : State) : NoNewHoldings u (u.sampleLines levels) := .of_holdings rfl
  have hspend (u : State) (l : List Src) : NoNewHoldings u (u.spendFree l) := .of_holdings rfl
  cases ht
  exact ((((tickTimers_holdLess s).noNew.trans (hsample _)).trans (hspend _ _)).trans
    (.foldl lineRose_noNew _ _)).trans (settle_noNew _)

theorem execOfferExpiry_noNew {i : Src} (ht : execOfferExpiry p i s = .next t) : NoNewHoldings s t := by
  cases ht
  split
  · exact .refl s
  · rename_i hn
    split
    · rename_i h
      obtain ⟨ho, -⟩ := (Bool.and_eq_true _ _).mp h
      exact (expireOffer_noNew hn ho).trans (settle_noNew _)
    · exact .refl s

theorem execServiceExpiry_noNew {i : Src} (ht : execServiceExpiry i s = .next t) : NoNewHoldings s t := by
  cases ht
  split
  · exact .refl s
  · rename_i hn
    split
    · rename_i hc
      split
      · exact (expireService_noNew hn hc).trans (settle_noNew _)
      · exact .refl s
    · exact .refl s
    · exact .refl s

/-! ### The links -/

theorem execLinkCharacter_noNew {x : LinkChar} (ht : execLinkCharacter p x s = .next t) : NoNewHoldings s t := by
  cases ht
  split
  · split
    · exact .refl s
    · exact .refl s
    · exact takeChar_noNew s p _ x
  · exact .refl s

theorem execFrameIdleTimeout_noNew (ht : execFrameIdleTimeout p s = .next t) : NoNewHoldings s t := by
  cases ht
  split
  · split
    · exact linkError_noNew s p _ _
    · exact .refl s
  · exact .refl s

theorem execHuntEnd_noNew (ht : execHuntEnd p s = .next t) : NoNewHoldings s t := by
  cases ht
  split
  · exact setRx_noNew s p _
  · exact .refl s

theorem execLineReturnToMark_noNew (ht : execLineReturnToMark p s = .next t) : NoNewHoldings s t := by
  cases ht
  split
  · split
    · exact linkError_noNew s p _ _
    · exact .refl s
  · exact .refl s

theorem execFrameSent_noNew (ht : execFrameSent p s = .next t) : NoNewHoldings s t := by
  have hidle : NoNewHoldings s (s.setEng p { s.eng p with tx := .idle }) := setEng_noNew rfl rfl
  cases ht
  split
  · exact .refl s
  · exact (frameEnded_noNew s p _).trans (settle_noNew _)
  · exact hidle.trans (settle_noNew _)

/-! ### The commands -/

/-- A request that passes the decoding checks only at a port that is ATTACHED or HELD. -/
theorem execKind_kept_of_on {k : ReqKind} {named : Frame → Bool} {run : Frame → State → State}
    (hk : k.atDetached = false) (hrun : ∀ f t, (t.eng p).state.isOn = true → NoNewHoldings t (run f t)) :
    HoldingsKept s (s.execKind p k named run) :=
  execKind_kept fun f t _ hc => (hrun f t (on_of_admitted hc hk)).kept

theorem exec_holdingsKept {c : Instr} (ht : exec c s = .next t) : HoldingsKept s t := by
  cases c with
  | fullReset => cases ht; exact fullReset_kept s
  | bootLoadComplete fatLow => exact execBootLoadComplete_kept ht
  | lineSample levels => exact (execLineSample_noNew ht).kept
  | offerExpiry p i => exact (execOfferExpiry_noNew ht).kept
  | serviceExpiry i => exact (execServiceExpiry_noNew ht).kept
  | linkCharacter p x => exact (execLinkCharacter_noNew ht).kept
  | frameIdleTimeout p => exact (execFrameIdleTimeout_noNew ht).kept
  | huntEnd p => exact (execHuntEnd_noNew ht).kept
  | lineReturnToMark p => exact (execLineReturnToMark_noNew ht).kept
  | frameSent p => exact (execFrameSent_noNew ht).kept
  | linkBreak p =>
    cases ht
    split
    · rename_i h
      exact (breakPort_kept h).trans (settle_noNew _).kept
    · exact .refl s
  | fatLow =>
    have hsample : NoNewHoldings s (s.sampleFat true) := .of_holdings rfl
    cases ht
    split
    · exact .refl s
    · exact ((hsample.trans (arbiter_noNew _)).trans (settle_noNew _)).kept
  | gapEnd fatLow =>
    have hidle : NoNewHoldings s (s.setBus { s.bus with state := .idle, fatLow := fatLow }) :=
      setBus_noNew fun p _ h => by
        rw [pollOutstanding_iff] at h ⊢
        exact .inl (h.resolve_right fun ⟨_, _, hg, _⟩ => BusState.noConfusion hg)
    cases ht
    split
    · exact ((hidle.trans (arbiter_noNew _)).trans (settle_noNew _)).kept
    · exact .refl s
  | bidRoundEnd address report check => exact (execBidRoundEnd_noNew ht).kept
  | pollEnd reply => exact (execPollEnd_noNew ht).kept
  | clearEnd reply => exact (execClearEnd_noNew ht).kept
  | scanStepEnd reply => exact (execScanStepEnd_noNew ht).kept
  | passWalk =>
    cases ht
    split
    · exact .refl s
    · exact ((passStep_holdLess s).noNew.trans (settle_noNew _)).kept
  | storeComplete content check =>
    cases ht
    split
    · exact .refl s
    · exact ((completeStore_noNew s _ _ content check).trans (settle_noNew _)).kept
  | attach p => cases ht; exact execKind_kept fun f t hmay hc => decideAttach_kept hmay hc
  | detach p => cases ht; exact execKind_kept fun f t hmay _ => decideDetach_kept hmay
  | hold p => cases ht; exact execKind_kept fun f t hmay _ => decideHold_kept hmay
  | resume p => cases ht; exact execKind_kept fun f t hmay _ => decideResume_kept hmay
  | claim p => cases ht; exact execKind_kept_of_noNew fun f t => decideClaim_noNew t p f
  | release p => cases ht; exact execKind_kept_of_noNew fun f t => decideRelease_noNew t p f
  | close p => cases ht; exact execKind_kept_of_noNew fun f t => decideClose_noNew t p f
  | poll p => cases ht; exact execKind_kept_of_on rfl fun f t hon => decidePoll_noNew hon
  | sweep p =>
    cases ht
    exact execKind_kept_of_noNew fun f t => (triggerPass_holdLess t).noNew.trans (respond_noNew _ _ _)
  | resumeField p fatLow => cases ht; exact execKind_kept_of_noNew fun f t => decideResumeField_noNew t p fatLow f
  | readEntry p => cases ht; exact execKind_kept_of_noNew fun f t => respond_noNew t p _
  | takeRight p => cases ht; exact execKind_kept_of_on rfl fun f t hon => decideTakeRight_noNew hon
  | giveRight p => cases ht; exact execKind_kept_of_noNew fun f t => decideGiveRight_noNew t p f
  | store p => cases ht; exact execKind_kept_of_on rfl fun f t hon => decideStore_noNew hon
  | status p => cases ht; exact execKind_kept_of_noNew fun f t => respond_noNew t p _
  | ackStatus p =>
    have hack (t : State) (a : Byte) : NoNewHoldings t (t.acknowledge p a) := .of_holdings rfl
    cases ht
    exact execKind_kept_of_noNew fun f t => (hack t _).trans (respond_noNew _ p _)
  | clearAll p =>
    cases ht
    refine execKind_kept fun f t hmay _ => ?_
    obtain ⟨hb, -⟩ := (mayExecute_iff t p).mp hmay
    split
    · exact acceptClearAll_kept hb
    · exact (respond_noNew t p _).kept
  | unknownRequest p => cases ht; exact execHead_kept fun f t _ => (respond_noNew t p _).kept
  | sourceDisable p => cases ht; exact execWrite_kept s p _
  | sourceEnable p => cases ht; exact execWrite_kept s p _
  | writeSourceEntry p => cases ht; exact execWrite_kept s p _
  | writeClassEntry p => cases ht; exact execWrite_kept s p _
  | writeOrder p => cases ht; exact execWrite_kept s p _
  | portEnable p => cases ht; exact execWrite_kept s p _
  | portDisable p => cases ht; exact execWrite_kept s p _
  | backlogLimitRaise p => cases ht; exact execWrite_kept s p _
  | backlogLimitLower p => cases ht; exact execWrite_kept s p _
  | linkRateWrite p => cases ht; exact execWrite_kept s p _
  | writePortEntry p => cases ht; exact execWrite_kept s p _
  | writeDeviceEntry p => cases ht; exact execWrite_kept s p _

theorem step_holdingsKept (ht : step s = .next t) : HoldingsKept s t := by
  unfold step at ht
  split at ht
  · cases ht
    exact .refl s
  · rename_i rest _
    have htaken : NoNewHoldings s { s with pending := rest } := .of_holdings rfl
    exact htaken.kept.trans (exec_holdingsKept ht)

/-- Settles O56: every operation but the changes of port states, the PORT writes and the starts of a scan gives no
port a new holding (`NoNewHoldings`); a port that leaves ATTACHED or HELD is detached, which leaves it nothing; and a
scan begins with no notice. -/
theorem stepKeepsHoldingsWithAttachedPorts : Obligations.StepKeepsHoldingsWithAttachedPorts :=
  ⟨fun _ _ hs ht => (step_holdingsKept ht).ports hs, fun _ _ hs ht => (step_holdingsKept ht).bare hs⟩

end Sys2Proof.Machine

/-! CLAIM that makes no claim (O33). -/

namespace Sys2Proof.Machine

variable {s : State} {p : Port} {f : Frame} {rest : List Frame}

/-- The answer to a request carries the HEAD of its kind (R141). -/
theorem answer_of_executes {k : ReqKind} (hex : Executes s p k f rest) (st : Status) (payload : List Byte) :
    f.answer st payload = ⟨k.head, st, payload⟩ := congrArg (fun h => (⟨h, st, payload⟩ : Response)) hex.kind

/-- A request that is answered and changes nothing else. -/
theorem exec_answered {c : Instr} {k : ReqKind} {run : Frame → State → State} {st : Status} {payload : List Byte}
    (hc : exec c s = .next (s.execKind p k (fun _ => true) run)) (hs : Settled s) (hex : Executes s p k f rest)
    (hd : run f (s.popped p rest) = (s.popped p rest).respond p (f.answer st payload)) :
    exec c s = .next (s.reply p { s.eng p with requests := rest } ⟨k.head, st, payload⟩) := by
  rw [hc, execKind_of_executes hex rfl, hd, answer_of_executes hex, settle_answer hs hex.may]

/-- Settles O33, by the branches of `decideClaim` that answer and do no more. -/
theorem refusedAndRepeatedClaims : Obligations.RefusedAndRepeatedClaims := by
  unfold Obligations.RefusedAndRepeatedClaims
  intro s p f rest i hs hex hnum
  have hsrc := ofNum_src hnum
  have hpair := claim_pair (lengthOk_of_admitted hex.admitted)
  have hpop := popped_alike s p rest
  refine ⟨fun hnone => exec_answered rfl hs hex ?_, fun n hn hmark => ?_⟩
  · unfold State.decideClaim
    rw [named_none (by rw [hsrc, hpop.notice]; exact hnone), hpair]
  have hnamed : (s.popped p rest).named f = some n := named_of_mark (by rw [hsrc, hpop.notice]; exact hn) hmark
  refine ⟨fun q hclaim hq => exec_answered rfl hs hex ?_, fun hclaim => exec_answered rfl hs hex ?_,
    fun hfree => exec_answered rfl hs hex ?_⟩
  · unfold State.decideClaim
    simp only [hnamed, hclaim, if_neg hq, hpair]
  · unfold State.decideClaim
    simp only [hnamed, hclaim, if_true, hpair]
  · unfold State.decideClaim
    rcases hfree with hstranded | ⟨hwaiting, ho⟩
    · simp only [hnamed, hstranded, hpair]
    · simp only [hnamed, hwaiting, ho, hpair, Bool.false_eq_true, if_false]

end Sys2Proof.Machine

/-! FRAME_SENT (O24). -/

namespace Sys2Proof.Machine

variable {s : State} {p q : Port}

/-- The end of an event latches nothing and clears nothing. -/
theorem settle_latched (s : State) (q : Port) : s.settle.latched q = s.latched q := by
  have port (t : State) (p : Port) : (t.settlePort p).latched q = t.latched q := by
    simp only [State.latched, (settlePort_parts t p).2.2]
  exact (port _ .C).trans ((port _ .B).trans (port s .A))

theorem autoClear_latched (s : State) (p q : Port) : (s.autoClear p).latched q =
    if p = q then s.latched p &&& ~~~(s.signalled p &&& ~~~s.present p) else s.latched q :=
  PerPort.get_set _ p q _

theorem startOfferTimer_attention (s : State) (p : Port) (info : NoticeInfo) :
    (s.startOfferTimer p info).attention = s.attention ∧ (s.startOfferTimer p info).present p = s.present p := by
  unfold State.startOfferTimer State.modNotice
  split <;> exact ⟨rfl, rfl⟩

/-- Auto-clear at the end of a frame, whatever the frame (R170). -/
theorem frameEnded_latched (s : State) (p q : Port) (f : TxFrame) : (s.frameEnded p f).latched q =
    if p = q then s.latched p &&& ~~~(s.signalled p &&& ~~~s.present p) else s.latched q := by
  unfold State.frameEnded
  dsimp only
  split
  · obtain ⟨hatt, hpresent⟩ := startOfferTimer_attention s p ‹_›
    refine (autoClear_latched _ p q).trans ?_
    simp only [State.latched, State.signalled, hatt, hpresent]
  · exact autoClear_latched _ p q
  · exact autoClear_latched _ p q

/-- The record of a sent NOTICE at the end of the frame (R97). -/
theorem frameEnded_notice {f : TxFrame} {info : NoticeInfo} (hf : f.body = .notice info) {n : Notice}
    (hn : s.notice info.src = some n) : (s.frameEnded p f).notice info.src =
      some (if n.mark = info.mark ∧ n.offers.has p ∧ (s.portCfg p).offerLimit ≠ 0 then
        { n with offerTimers := n.offerTimers.set p (some (s.portCfg p).offerLimit.toNat) } else n) := by
  have hstart : (s.frameEnded p f).notice info.src = (s.startOfferTimer p info).notice info.src := by
    unfold State.frameEnded
    rw [hf]
    rfl
  rw [hstart, State.startOfferTimer, modNotice_notice, if_pos rfl, hn]
  rfl

/-- Settles O24. The timer and the auto-clear are `frameEnded_notice` and `frameEnded_latched`; the transmitters' choice
afterwards changes of a record its offers and its shown flag alone. -/
theorem frameEndStartsTheTimerAndAutoClears : Obligations.FrameEndStartsTheTimerAndAutoClears := by
  unfold Obligations.FrameEndStartsTheTimerAndAutoClears
  refine fun s p => ⟨fun f hf => ⟨(s.frameEnded p f).settle, ?_, ?_, fun q hq => ?_, fun info n hbody hn => ?_⟩,
    fun hcut => ⟨(s.setEng p { s.eng p with tx := .idle }).settle, ?_, settle_latched _, fun i n hn => ?_⟩⟩
  · show execFrameSent p s = _
    unfold execFrameSent
    rw [hf]
  · rw [settle_latched, frameEnded_latched, if_pos rfl]
  · rw [settle_latched, frameEnded_latched, if_neg (Ne.symm hq)]
  · obtain ⟨o, sh, hm⟩ := (settle_noticeStays (s.frameEnded p f) info.src).record _ (frameEnded_notice hbody hn)
    refine ⟨fun hmark ho hlimit => ⟨_, hm, ?_⟩, fun hno => ⟨_, hm, ?_⟩⟩
    · simp only [if_pos (And.intro hmark (And.intro ho hlimit)), and_self]
    · have hstands : ¬ (n.mark = info.mark ∧ n.offers.has p ∧ (s.portCfg p).offerLimit ≠ 0) := by
        rintro ⟨hmark, ho, hlimit⟩
        rcases hno with h | h | h
        · exact h hmark
        · rw [ho] at h
          cases h
        · exact hlimit h
      simp only [if_neg hstands, and_self]
  · show execFrameSent p s = _
    unfold execFrameSent
    rw [hcut]
  · obtain ⟨o, sh, hm⟩ := (settle_noticeStays (s.setEng p { s.eng p with tx := .idle }) i).record n hn
    exact ⟨_, hm, rfl⟩

end Sys2Proof.Machine

/-! CLAIM of a class that is closed by hand (O34). -/

namespace Sys2Proof.Machine

variable {s u : State} {p q : Port} {f : Frame} {rest : List Frame} {i : Src} {n : Notice}

/-- The record of a claim under a service limit (R103, R122). -/
def Notice.claimedUnder (n : Notice) (p : Port) (limit : BitVec 16) : Notice :=
  { n.claimedBy p with serviceTimer := serviceTimerOf limit }

/-- A CLAIM of an offered notice of a MANUAL class before the transmitters choose. -/
def State.claimedManually (s : State) (p : Port) (i : Src) (n : Notice) (r : Response) : State :=
  ((s.makeClaim p i n).setNotice i (some (n.claimedUnder p (s.clsCfg n.cls).serviceLimit))).respond p r

/-- CLAIM of an offered notice whose class is closed by hand: the claim is made, its timer starts, and OK carries the
conditions (R103, R106, R122). -/
theorem exec_claim_manual (hex : Executes s p .claim f rest) (hsrc : f.src = i) (hn : s.notice i = some n)
    (hmark : n.mark = f.mark) (hw : n.state = .waiting) (ho : n.offers.has p = true)
    (hmanual : (s.clsCfg n.cls).closeMode = .manual) : exec (.claim p) s =
      .next ((s.popped p rest).claimedManually p i n ⟨0x20, .ok, f.payload ++ le16 n.conds⟩).settle := by
  subst hsrc
  have hresp : f.answer .ok (f.pair ++ le16 n.conds) = ⟨0x20, .ok, f.payload ++ le16 n.conds⟩ := by
    rw [claim_pair (lengthOk_of_admitted hex.admitted)]
    exact answer_of_executes hex _ _
  have hnamed : (s.popped p rest).named f = some n :=
    named_of_mark (((popped_alike s p rest).notice _).trans hn) hmark
  have hmode : ((s.popped p rest).clsCfg n.cls).closeMode = .manual := hmanual
  have htimer : ((s.popped p rest).makeClaim p f.src n).modNotice f.src (fun m => { m with
      serviceTimer := serviceTimerOf ((s.popped p rest).clsCfg n.cls).serviceLimit }) =
      ((s.popped p rest).makeClaim p f.src n).setNotice f.src
        (some (n.claimedUnder p ((s.popped p rest).clsCfg n.cls).serviceLimit)) := by
    unfold State.modNotice
    rw [(makeClaim_made (s.popped p rest) p f.src n).own]
    rfl
  show Host.Outcome.next (s.execKind p .claim (fun _ => true) (fun f t => t.decideClaim p f)) = _
  rw [execKind_of_executes hex rfl, State.decideClaim, hnamed]
  simp only [hw, ho, if_true, State.claimOffered, hmode, hresp, htimer]
  rfl

/-- After an event that has given no port a reference, and has taken offers back only of ports that then have something
to send, no port takes a head. -/
theorem SourceStep.noneTaken (h : SourceStep s u i) (hs : Settled s)
    (ho : ∀ q, s.offerCount q ≤ u.offerCount q ∨ (u.eng q).responses ≠ [] ∨ (u.eng q).withdrawals ≠ [])
    (hq : ∀ q, s.queue q = [] → u.queue q = []) (q : Port) : u.headTaken q = none := by
  rcases ho q with hle | hlists
  · by_contra hne
    obtain ⟨j, hj⟩ := Option.ne_none_iff_exists'.mp hne
    obtain ⟨-, -, ⟨l, hl⟩, -⟩ := headTaken_some hj
    rw [hq q (headTaken_of_settled hs h.stage (h.tx q) (h.portState q) hle hj)] at hl
    cases hl
  · exact headTaken_of_lists hlists

/-- What a CLAIM of a MANUAL class leaves before the transmitters choose. -/
structure ClaimedManually (s u : State) (p : Port) (i : Src) (n : Notice) : Prop where
  step : SourceStep s u i
  own : u.notice i = some (n.claimedUnder p (s.clsCfg n.cls).serviceLimit)
  queue : ∀ q, u.queue q = (s.queue q).filter (fun j => j != i)
  stranded : u.stranded = s.stranded
  sources : u.sources = s.sources
  bus : u.bus = s.bus
  attention : u.attention = s.attention
  sending : ∀ q, s.offerCount q ≤ u.offerCount q ∨ (u.eng q).responses ≠ [] ∨ (u.eng q).withdrawals ≠ []
  told : ∀ q, q ≠ p → n.offers.has q = true → ⟨i, n.mark, .taken⟩ ∈ (u.eng q).withdrawals
  untold : ∀ q, q ≠ p → n.offers.has q = false → u.eng q = s.eng q

theorem claimedManually_of_offer (hn : s.notice i = some n) (r : Response) :
    ClaimedManually s ((s.popped p rest).claimedManually p i n r) p i n ∧
      r ∈ (((s.popped p rest).claimedManually p i n r).eng p).responses := by
  have hpop := popped_alike s p rest
  have hmade := makeClaim_made (s.popped p rest) p i n
  unfold State.claimedManually
  generalize (s.popped p rest).makeClaim p i n = c at hmade ⊢
  generalize hm : n.claimedUnder p ((s.popped p rest).clsCfg n.cls).serviceLimit = m
  have hcstep := (hpop.sourceStep i).trans hmade.sourceStep
  have hset : SourceStep c (c.setNotice i (some m)) i := setNotice_sourceStep c i (some m)
  have hstep : SourceStep s ((c.setNotice i (some m)).respond p r) i :=
    (hcstep.trans hset).trans ((respond_alike _ p r).sourceStep i)
  have hother (q : Port) (hq : q ≠ p) : ((c.setNotice i (some m)).respond p r).eng q = c.eng q := by
    rw [respond_eng, if_neg (Ne.symm hq)]
    rfl
  have howes : r ∈ (((c.setNotice i (some m)).respond p r).eng p).responses := by
    rw [respond_eng, if_pos rfl]
    exact List.mem_append_right _ List.mem_cons_self
  refine ⟨{
    step := hstep
    own := by
      show (c.setNotice i (some m)).notice i = _
      rw [State.notice_setNotice, if_pos rfl, ← hm]
      rfl
    queue := fun q => (hmade.queue q).trans (by rw [hpop.queue])
    stranded := hmade.stranded
    sources := hmade.sources
    bus := hmade.bus
    attention := hmade.attention
    sending := hmade.sending hn hstep (List.ne_nil_of_mem howes) hother
    told := fun q hq hoq => by
      rw [hother q hq]
      exact hmade.told hq hoq
    untold := fun q hq hoq => by rw [hother q hq, hmade.eng_of_not_offered hoq, popped_eng_ne hq] }, howes⟩

/-- Settles O34: `claimedManually_of_offer` says what the claim leaves, and after it no port takes a head. -/
theorem claimTakesAnOfferedNotice : Obligations.ClaimTakesAnOfferedNotice := by
  unfold Obligations.ClaimTakesAnOfferedNotice
  intro s p f rest i n hs hex hnum hn hmark hw ho hmanual
  have hrun := exec_claim_manual hex (ofNum_src hnum) hn hmark hw ho hmanual
  generalize (⟨0x20, .ok, f.payload ++ le16 n.conds⟩ : Response) = r at hrun ⊢
  obtain ⟨hclaimed, howes⟩ := claimedManually_of_offer (p := p) (rest := rest) hn r
  generalize (s.popped p rest).claimedManually p i n r = u at *
  have hempty (q : Port) (h : s.queue q = []) : u.queue q = [] := by rw [hclaimed.queue, h]; rfl
  obtain ⟨hnotices, hdelivery⟩ := settle_of_noneTaken (hclaimed.step.noneTaken hs hclaimed.sending hempty)
  have htouches := hclaimed.step.touchesOnly_sending hs hclaimed.sending
  refine ⟨u.settle, hrun, ?_, settle_owes howes, fun q hq hoq => settle_announces (hclaimed.told q hq hoq), fun q => ?_,
    htouches.notices, ?_, fun q hq hoq => ?_, (settle_sources u).trans hclaimed.sources,
    (settle_bus u).trans hclaimed.bus, htouches.config, htouches.stage, fun q => ?_⟩
  · simp only [State.notice, hnotices]
    exact hclaimed.own
  · simp only [State.queue, hdelivery]
    exact hclaimed.queue q
  · simp only [State.stranded, hnotices]
    exact hclaimed.stranded
  · exact settle_eng_of_after hs hclaimed.step.stage (hclaimed.untold q hq hoq) (hempty q)
      (hclaimed.step.offerCount_le_of_not_offered hn hoq)
  · rw [settle_latched]
    simp only [State.latched, hclaimed.attention]

end Sys2Proof.Machine

/-! RELEASE (O36). -/

namespace Sys2Proof.Machine

variable {s t u : State} {p q : Port} {f : Frame} {rest : List Frame} {i : Src} {n m : Notice}

/-! ### What a walk leaves of a WAITING notice, wherever it stands (R83 to R87) -/

/-- A reference given leaves the record of a notice that waits. -/
theorem placeRefs_notice (hn : s.notice i = some n) (hw : n.state = .waiting) :
    (s.placeRefs i n).notice i = some n := by
  have hself : ({ n with state := .waiting } : Notice) = n := by rw [← hw]
  unfold State.placeRefs
  split
  · split
    · rw [giveRef_notice hn, hself]
    · exact hn
  · have hgiven := (foldl_giveRef i n (s.cfg i).route.ports s n hn).2
    rwa [hself, ite_self] at hgiven

theorem walk_of_waiting (hn : s.notice i = some n) (hw : n.state = .waiting) : s.walk i =
    if (s.placeRefs i n).hasPlace i then s.placeRefs i n else (s.placeRefs i n).strand i := by
  unfold State.walk
  simp [hn, hw]

/-- A walk leaves the record, or strands the notice with an empty tried set. -/
theorem walk_leaves (hn : s.notice i = some n) (hw : n.state = .waiting) : (s.walk i).notice i = some n ∨
    ((s.walk i).notice i = some { n with state := .stranded, tried := PortSet.empty } ∧ i ∈ (s.walk i).stranded) := by
  have hplaced := placeRefs_notice hn hw
  rw [walk_of_waiting hn hw]
  split
  · exact .inl hplaced
  · refine .inr ⟨modNotice_some hplaced _, ?_⟩
    show i ∈ insertByKey _ i _
    simp

/-- A walk gives no reference at a port that is tried. -/
theorem walk_queue_of_tried (hn : s.notice i = some n) (hw : n.state = .waiting) (hq : n.tried.has q = true) :
    (s.walk i).queue q = s.queue q := by
  have hstrand (t : State) : (t.strand i).queue q = t.queue q := modNotice_queue t i _ q
  rw [walk_of_waiting hn hw]
  split
  · exact placeRefs_queue_of_tried hq s i
  · exact (hstrand _).trans (placeRefs_queue_of_tried hq s i)

/-- A walked notice has been let go by every port of its tried set. -/
theorem walk_letGo (hn : s.notice i = some n) (hw : n.state = .waiting) (hp : n.tried.has p = true) :
    ∃ m, (s.walk i).notice i = some m ∧ m = { n with state := m.state, tried := m.tried } ∧ (s.walk i).letGo p i m := by
  rcases walk_leaves hn hw with hm | ⟨hm, hlisted⟩
  · exact ⟨n, hm, rfl, .inl ⟨hw, hp⟩⟩
  · exact ⟨_, hm, rfl, .inr ⟨rfl, rfl, hlisted⟩⟩

/-! ### What the end of an event keeps -/

/-- What has been shown to a port stays shown (R54). -/
theorem settle_shown (hn : s.notice i = some n) (hsh : n.shown = true) :
    ∃ m, s.settle.notice i = some m ∧ m.shown = true := by
  have port {t : State} (r : Port) (h : ∃ m, t.notice i = some m ∧ m.shown = true) :
      ∃ m, (t.settlePort r).notice i = some m ∧ m.shown = true := by
    obtain ⟨m, hm, hshown⟩ := h
    rw [settlePort_notice, hm]
    split
    · exact ⟨_, rfl, rfl⟩
    · exact ⟨m, rfl, hshown⟩
  exact port .C (port .B (port .A ⟨n, hn, hsh⟩))

/-- A transmitter that is sending, or has no withdrawal, takes none off its list (R143). -/
theorem settle_withdrawals (h : (s.eng q).tx = .idle → (s.eng q).state ≠ .disabled → (s.eng q).withdrawals = []) :
    (s.settle.eng q).withdrawals = (s.eng q).withdrawals := by
  obtain ⟨t, ht, he⟩ := settle_eng s q
  rw [he]
  rw [← ht] at h ⊢
  by_cases hw : (t.eng q).withdrawals = []
  · rw [hw, (settlePort_port t q).2 hw]
  · obtain ⟨⟨_, _, _, hrate⟩, -, -⟩ := applyRate_keeps t q q
    have hkept : ((t.applyRate q).eng q).withdrawals = (t.eng q).withdrawals := by rw [hrate]
    rw [← hkept, State.settlePort, State.chooseFrame, if_neg]
    rintro ⟨htx, hst⟩
    rw [hrate] at htx hst
    exact hw (h htx hst)

/-! ### The release -/

/-- The record of a claim that p gives back (R110). -/
def Notice.releasedBy (n : Notice) (p : Port) : Notice :=
  { n with state := .waiting, tried := n.tried.insert p, serviceTimer := none }

/-- A RELEASE by the claimant up to its walk. -/
def State.giveBack (s : State) (p : Port) (i : Src) (n : Notice) (r : Response) : State :=
  (s.setNotice i (some (n.releasedBy p))).respond p r

/-- RELEASE by the claimant: the notice waits with p in its tried set, OK is made with the pair, and the notice is
walked (R110). -/
theorem exec_release_claimed (hex : Executes s p .release f rest) (hsrc : f.src = i) (hn : s.notice i = some n)
    (hmark : n.mark = f.mark) (hc : n.state = .claimed p) : exec (.release p) s =
      .next (((s.popped p rest).giveBack p i n ⟨0x21, .ok, f.payload⟩).walk i).settle := by
  subst hsrc
  have hresp : f.answer .ok f.pair = ⟨0x21, .ok, f.payload⟩ := by
    rw [claim_pair (lengthOk_of_admitted hex.admitted)]
    exact answer_of_executes hex _ _
  have hnamed : (s.popped p rest).named f = some n :=
    named_of_mark (((popped_alike s p rest).notice _).trans hn) hmark
  show Host.Outcome.next (s.execKind p .release (fun _ => true) (fun f t => t.decideRelease p f)) = _
  rw [execKind_of_executes hex rfl, State.decideRelease, hnamed]
  simp only [hc, if_true, hresp]
  rfl

/-- What a RELEASE by the claimant leaves before the transmitters choose. -/
structure Released (s u : State) (p : Port) (i : Src) (n : Notice) : Prop where
  step : SourceStep s u i
  sources : u.sources = s.sources
  bus : u.bus = s.bus
  others : ∀ q, q ≠ p → u.eng q = s.eng q
  own : ∃ m, u.notice i = some m ∧ m = { n.releasedBy p with state := m.state, tried := m.tried } ∧ u.letGo p i m
  placed : u.placedAt i p = s.placedAt i p
  walked : (∀ q, i ∉ s.queue q) → n.offers = PortSet.empty → ∃ m, u.notice i = some m ∧
    Walked s u i (n.tried.insert p) (fun q => (s.queue q).length) m

/-- What a RELEASE by the claimant leaves before its walk. -/
structure GivenBack (s v : State) (p : Port) (i : Src) (n : Notice) : Prop where
  step : SourceStep s v i
  own : v.notice i = some (n.releasedBy p)
  queue : ∀ q, v.queue q = s.queue q
  sources : v.sources = s.sources
  bus : v.bus = s.bus
  others : ∀ q, q ≠ p → v.eng q = s.eng q

theorem giveBack_givenBack (s : State) (p : Port) (rest : List Frame) (i : Src) (n : Notice) (r : Response) :
    GivenBack s ((s.popped p rest).giveBack p i n r) p i n where
  step := (((popped_alike s p rest).sourceStep i).trans (setNotice_sourceStep _ i _)).trans
    ((respond_alike _ p r).sourceStep i)
  own := by
    show ((s.popped p rest).setNotice i (some (n.releasedBy p))).notice i = _
    rw [State.notice_setNotice, if_pos rfl]
  queue := (popped_alike s p rest).queue
  sources := rfl
  bus := rfl
  others q hq := by rw [State.giveBack, respond_eng, if_neg (Ne.symm hq), State.eng_setNotice, popped_eng_ne hq]

theorem giveBack_owes (s : State) (p : Port) (i : Src) (n : Notice) (r : Response) :
    r ∈ ((s.giveBack p i n r).eng p).responses := by
  rw [State.giveBack, respond_eng, if_pos rfl]
  exact List.mem_append_right _ List.mem_cons_self

theorem walk_eng (s : State) (i : Src) (q : Port) : (s.walk i).eng q = s.eng q := by
  obtain ⟨-, -, -, -, he, -⟩ := offNotices_fields (walk_offNotices s i)
  simp only [State.eng, he]

/-- A released notice with no place is walked with p skipped as tried (R83 to R87). -/
theorem GivenBack.walked {v : State} (h : GivenBack s v p i n) (hrefs : ∀ q, i ∉ s.queue q)
    (hoffers : n.offers = PortSet.empty) : ∃ m, (v.walk i).notice i = some m ∧
      Walked s (v.walk i) i (n.tried.insert p) (fun q => (s.queue q).length) m := by
  have hbare : v.hasPlace i = false := by
    rw [← Bool.not_eq_true, hasPlace_iff_placedAt]
    rintro ⟨q, hq⟩
    rw [placedAt_iff h.own, h.queue] at hq
    refine hq.elim (hrefs q) fun ho => ?_
    rw [show (n.releasedBy p).offers = PortSet.empty from hoffers, PortSet.has_empty] at ho
    cases ho
  obtain ⟨m, hm, -, hwalked⟩ := walk_walked h.own rfl hbare
  refine ⟨m, hm, ?_⟩
  unfold Walked at hwalked ⊢
  simp only [h.queue] at hwalked
  rwa [takes_congr h.step.config h.step.portState, show v.cfg i = s.cfg i by simp only [State.cfg, h.step.config]]
    at hwalked

theorem GivenBack.released {v : State} (h : GivenBack s v p i n) (hn : s.notice i = some n) :
    Released s (v.walk i) p i n := by
  have hwalk := walk_walkStep v i
  obtain ⟨-, -, hsources, hbus, -⟩ := offNotices_fields hwalk.rest
  have htried : (n.releasedBy p).tried.has p = true := by simp [Notice.releasedBy]
  have hleft := walk_letGo h.own rfl htried
  exact {
    step := h.step.trans hwalk.sourceStep
    sources := hsources.trans h.sources
    bus := hbus.trans h.bus
    others := fun q hq => (walk_eng v i q).trans (h.others q hq)
    own := hleft
    placed := by
      obtain ⟨m, hm, hmeq, -⟩ := hleft
      rw [Bool.eq_iff_iff, placedAt_iff hm, placedAt_iff hn, walk_queue_of_tried h.own rfl htried, h.queue, hmeq]
      rfl
    walked := h.walked }

/-- Settles O36. The refusals answer and do no more; what a release leaves is `GivenBack.released`, and at the end of
the event the notice stays in its places. -/
theorem releaseReturnsTheNotice : Obligations.ReleaseReturnsTheNotice := by
  unfold Obligations.ReleaseReturnsTheNotice
  intro s p f rest i hs hex hnum
  have hsrc := ofNum_src hnum
  have hpair := claim_pair (lengthOk_of_admitted (k := .release) hex.admitted)
  have hpop := popped_alike s p rest
  refine ⟨fun hnone => exec_answered rfl hs hex ?_, fun n hn hmark hother => exec_answered rfl hs hex ?_,
    fun n hn hmark hc href hoffer => ?_⟩
  · unfold State.decideRelease
    rw [named_none (by rw [hsrc, hpop.notice]; exact hnone), hpair]
  · unfold State.decideRelease
    rw [named_of_mark (by rw [hsrc, hpop.notice]; exact hn) hmark, hpair]
    exact if_neg hother
  have hrun := exec_release_claimed hex hsrc hn hmark hc
  generalize (⟨0x21, .ok, f.payload⟩ : Response) = r at hrun ⊢
  have hrel := (giveBack_givenBack s p rest i n r).released hn
  have howes : r ∈ ((((s.popped p rest).giveBack p i n r).walk i).eng p).responses := by
    rw [walk_eng]
    exact giveBack_owes _ p i n r
  generalize ((s.popped p rest).giveBack p i n r).walk i = u at *
  obtain ⟨m, hm, hmeq, hgone⟩ := hrel.own
  have hoffers : m.offers = n.offers := by rw [hmeq]; rfl
  have hstays := settle_noticeStays u i
  obtain ⟨o, sh, ht⟩ := hstays.record m hm
  have hunplaced : ¬ (i ∈ u.settle.queue p ∨ o.has p = true) := by
    rw [← placedAt_iff ht, hstays.placed, hrel.placed, placedAt_iff hn, hoffer]
    simpa using href
  rw [not_or, Bool.not_eq_true] at hunplaced
  obtain ⟨hunref, hunoffered⟩ := hunplaced
  have htouches : TouchesOnly s u.settle i := hrel.step.touchesOnly hs
    (hrel.step.offerCount_le fun k q hk hq => ⟨m, hm, by
      rw [hn] at hk
      cases hk
      rw [hoffers]
      exact hq⟩)
  refine ⟨u.settle, hrun, settle_owes howes, ⟨_, ht, by rw [hmeq]; rfl, by rw [hmeq]; rfl, by rw [hmeq]; rfl,
    by rw [hmeq]; rfl, fun hshown => ?_, by rw [hmeq]; rfl, letGo_of_stays hgone hstays, hunref, hunoffered,
    fun hrefs hempty => ?_⟩, htouches, fun q hq => ?_, (settle_sources u).trans hrel.sources,
    (settle_bus u).trans hrel.bus, htouches.config, htouches.stage⟩
  · obtain ⟨k, hk, hkshown⟩ := settle_shown hm (by rw [hmeq]; exact hshown)
    obtain rfl := Option.some.inj (hk.symm.trans ht)
    exact hkshown
  · obtain ⟨k, hk, hwalked⟩ := hrel.walked hrefs hempty
    obtain rfl : k = m := Option.some.inj (hk.symm.trans hm)
    refine ⟨fun q => (s.queue q).length,
      hwalked.of_stays rfl (fun _ => rfl) hm ht hstays.stranded hstays.placed, fun q => ?_⟩
    rw [filter_ne_of_not_mem (hrefs q)]
    exact ⟨le_rfl, Nat.le_add_right _ _⟩
  · rw [settle_withdrawals, hrel.others q hq]
    intro hidle hon
    rw [hrel.others q hq] at hidle hon ⊢
    obtain ⟨-, hlists⟩ := hs.quiet q hidle
    obtain ⟨-, hwithdrawals, -⟩ := hlists hon
    exact hwithdrawals

end Sys2Proof.Machine

/-! SUPPORT. An event that makes a port let go of a notice and tells it so, and what its end leaves (R119, R124). -/

namespace Sys2Proof.Machine

variable {s t u v : State} {p q : Port} {i : Src} {n k m : Notice} {w : Withdrawal}

/-! ### A port lets go of a notice, and the notice is handed on -/

/-- Between s and v port p has let go of the notice of i, which waits with the record k and stands where it stood but
for p, and p has been told by the withdrawal w. -/
structure LetsGo (s v : State) (p : Port) (i : Src) (k : Notice) (w : Withdrawal) : Prop where
  step : SourceStep s v i
  own : v.notice i = some k
  waiting : k.state = .waiting
  tried : k.tried.has p = true
  unoffered : k.offers.has p = false
  kept : ∀ n, s.notice i = some n → ∀ q, q ≠ p → n.offers.has q = true → k.offers.has q = true
  queue : ∀ q, v.queue q = s.queue q
  sources : v.sources = s.sources
  bus : v.bus = s.bus
  engine : ∀ q, v.eng q = (s.withdraw p w).eng q

/-- The same, once the notice has been walked where a walk is due. -/
structure HandedOn (s u : State) (p : Port) (i : Src) (k : Notice) (w : Withdrawal) : Prop where
  step : SourceStep s u i
  own : ∃ st tr, let m : Notice := { k with state := st, tried := tr }
    u.notice i = some m ∧ u.letGo p i m ∧ ((∀ q, i ∉ s.queue q) → (∀ q, k.offers.has q = false) →
      Walked s u i k.tried (fun q => (s.queue q).length) m)
  unplaced : u.placedAt i p = false
  offers : ∀ q, q ≠ p → s.offerCount q ≤ u.offerCount q
  sources : u.sources = s.sources
  bus : u.bus = s.bus
  engine : ∀ q, u.eng q = (s.withdraw p w).eng q

theorem withdraw_alike (s : State) (p : Port) (w : Withdrawal) : Alike s (s.withdraw p w) where
  stage := rfl
  config := rfl
  sources := rfl
  notices := rfl
  delivery := rfl
  attention := rfl
  ports q := by
    rw [withdraw_eng]
    split
    · subst_vars; exact ⟨rfl, rfl⟩
    · exact ⟨rfl, rfl⟩

theorem occur_alike (s : State) (p : Port) (code : Nat) : AlikeLatching s (s.occur p code) where
  stage := rfl
  config := rfl
  sources := rfl
  notices := rfl
  delivery := rfl
  latched q := by
    rw [State.occur, gain_latched]
    split
    · subst_vars
      ext k
      simp only [BitVec.getElem_and, BitVec.getElem_or]
      cases (s.latched q)[k] <;> simp
    · exact BitVec.and_self
  ports _ := ⟨rfl, rfl⟩

/-- A record put in place of the notice of i, and a withdrawal. -/
theorem setNotice_withdraw_letsGo (hw : k.state = .waiting) (ht : k.tried.has p = true) (ho : k.offers.has p = false)
    (hkept : ∀ n, s.notice i = some n → ∀ q, q ≠ p → n.offers.has q = true → k.offers.has q = true) :
    LetsGo s ((s.setNotice i (some k)).withdraw p w) p i k w where
  step := (setNotice_sourceStep s i _).trans ((withdraw_alike _ p w).sourceStep i)
  own := by rw [(withdraw_alike _ p w).notice, State.notice_setNotice, if_pos rfl]
  waiting := hw
  tried := ht
  unoffered := ho
  kept := hkept
  queue _ := rfl
  sources := rfl
  bus := rfl
  engine _ := rfl

theorem LetsGo.occur (h : LetsGo s v p i k w) (q : Port) (code : Nat) : LetsGo s (v.occur q code) p i k w :=
  { h with step := h.step.trans ((occur_alike v q code).sourceStep i) }

theorem LetsGo.unplaced (h : LetsGo s v p i k w) (hp : i ∉ s.queue p) : v.placedAt i p = false := by
  rw [← Bool.not_eq_true, placedAt_iff h.own, h.queue, h.unoffered]
  simpa using hp

/-- The notice has a place where it has one but for p. -/
theorem LetsGo.hasPlace_iff (h : LetsGo s v p i k w) :
    v.hasPlace i = true ↔ (∃ q, i ∈ s.queue q) ∨ ∃ q, k.offers.has q = true := by
  rw [hasPlace_iff_placedAt, ← exists_or]
  simp only [placedAt_iff h.own, h.queue]

/-- A port but p has lost no offer where the notice of i has kept the offers of its record. -/
theorem LetsGo.offerCount_le (h : LetsGo s v p i k w) (hstep : SourceStep s u i) (hm : u.notice i = some m)
    (hmk : m.offers = k.offers) (hq : q ≠ p) : s.offerCount q ≤ u.offerCount q :=
  offerCount_mono fun j n hn ho => by
    by_cases hj : j = i
    · subst hj
      exact ⟨m, hm, hmk ▸ h.kept n hn q hq ho⟩
    · exact ⟨n, by rw [hstep.notices j hj, hn], ho⟩

/-- A notice that has other places stays at them (R120). -/
theorem LetsGo.stays (h : LetsGo s v p i k w) (hp : i ∉ s.queue p) (hplace : v.hasPlace i = true) :
    HandedOn s v p i k w where
  step := h.step
  own := by
    refine ⟨k.state, k.tried, h.own, .inl ⟨h.waiting, h.tried⟩, fun hrefs hoffers => ?_⟩
    rcases h.hasPlace_iff.mp hplace with ⟨q, hq⟩ | ⟨q, hq⟩
    · exact absurd hq (hrefs q)
    · rw [hoffers q] at hq
      cases hq
  unplaced := h.unplaced hp
  offers _ hq := h.offerCount_le h.step h.own rfl hq
  sources := h.sources
  bus := h.bus
  engine := h.engine

/-- What a walk leaves, seen from a state with the same entries and port states. -/
theorem Walked.of_sourceStep {tried : PortSet} {len : Port → Nat} (h : Walked v t i tried len m)
    (hstep : SourceStep s v i) : Walked s t i tried len m := by
  unfold Walked at h ⊢
  rwa [takes_congr hstep.config hstep.portState, show v.cfg i = s.cfg i by simp only [State.cfg, hstep.config]] at h

/-- The notice is walked with p skipped as tried (R83 to R87). -/
theorem LetsGo.walk (h : LetsGo s v p i k w) (hp : i ∉ s.queue p) : HandedOn s (v.walk i) p i k w := by
  have hwalk := walk_walkStep v i
  have hstep := h.step.trans hwalk.sourceStep
  obtain ⟨-, -, hsources, hbus, -⟩ := offNotices_fields hwalk.rest
  obtain ⟨m, hm, hmk, hgone⟩ := walk_letGo h.own h.waiting h.tried
  obtain ⟨st, tr, rfl⟩ : ∃ st tr, m = { k with state := st, tried := tr } := ⟨_, _, hmk⟩
  refine ⟨hstep, ⟨st, tr, hm, hgone, fun hrefs hnone => ?_⟩, ?_, fun q hq => h.offerCount_le hstep hm rfl hq,
    hsources.trans h.sources, hbus.trans h.bus, fun q => (walk_eng v i q).trans (h.engine q)⟩
  · have hbare : v.hasPlace i = false := by
      rw [← Bool.not_eq_true, h.hasPlace_iff]
      simp [hrefs, hnone]
    obtain ⟨m', hm', -, hwalked⟩ := walk_walked h.own h.waiting hbare
    obtain rfl := Option.some.inj (hm'.symm.trans hm)
    simp only [h.queue] at hwalked
    exact hwalked.of_sourceStep h.step
  · rw [← Bool.not_eq_true, placedAt_iff hm, walk_queue_of_tried h.own h.waiting h.tried,
      ← placedAt_iff h.own, h.unplaced hp]
    decide

theorem LetsGo.walkIfBare (h : LetsGo s v p i k w) (hp : i ∉ s.queue p) : HandedOn s (v.walkIfBare i) p i k w := by
  unfold State.walkIfBare
  split
  · next hplace => exact h.stays hp hplace
  · exact h.walk hp

/-! ### The end of such an event -/

/-- What the event has left when the transmitters have chosen. -/
structure HandedOnAtEnd (s t : State) (p : Port) (i : Src) (k : Notice) (w : Withdrawal) : Prop where
  told : t.announces p w
  own : ∃ st tr o sh, let m : Notice := { k with state := st, tried := tr, offers := o, shown := sh }
    t.notice i = some m ∧ (k.shown = true → m.shown = true) ∧ t.letGo p i m ∧ i ∉ t.queue p ∧
      m.offers.has p = false ∧ ((∀ q, i ∉ s.queue q) → (∀ q, k.offers.has q = false) → WalkedAmong s t i k.tried m)
  touches : Settled s → TouchesOnly s t i
  links : Settled s → LinksKept s t
  sources : t.sources = s.sources
  bus : t.bus = s.bus
  config : t.config = s.config
  stage : t.stage = s.stage

theorem HandedOn.withdrawal_mem (h : HandedOn s u p i k w) : w ∈ (u.eng p).withdrawals := by
  rw [h.engine, withdraw_eng, if_pos rfl]
  exact List.mem_append_right _ List.mem_cons_self

/-- p has a withdrawal to send, and no other port has lost an offer. -/
theorem HandedOn.sending (h : HandedOn s u p i k w) (q : Port) :
    s.offerCount q ≤ u.offerCount q ∨ (u.eng q).responses ≠ [] ∨ (u.eng q).withdrawals ≠ [] := by
  by_cases hq : q = p
  · rw [hq]
    exact .inr (.inr (List.ne_nil_of_mem h.withdrawal_mem))
  · exact .inl (h.offers q hq)

theorem HandedOn.linksKept (h : HandedOn s u p i k w) (hs : Settled s) : LinksKept s u.settle := by
  have hlists (q : Port) : ∃ l, u.eng q = { s.eng q with withdrawals := l } := by
    rw [h.engine, withdraw_eng]
    split
    · subst_vars; exact ⟨_, rfl⟩
    · exact ⟨_, rfl⟩
  have hkept : LinksKept u u.settle := settle_linksKept fun q hidle => by
    obtain ⟨l, hl⟩ := hlists q
    rw [hl] at hidle ⊢
    obtain ⟨hrate, hempty⟩ := hs.quiet q hidle
    exact ⟨hrate, fun hon => (hempty hon).1⟩
  intro q
  obtain ⟨l, hl⟩ := hlists q
  rw [hkept q, hl]

/-- At the end of the event the notice stays in its places (R96). -/
theorem HandedOn.settle (h : HandedOn s u p i k w) : HandedOnAtEnd s u.settle p i k w := by
  obtain ⟨-, hstage, -, -, hconfig, -⟩ := offLinks_fields (settle_offLinks u)
  refine ⟨settle_announces h.withdrawal_mem, ?_, fun hs => h.step.touchesOnly_sending hs h.sending, h.linksKept,
    (settle_sources u).trans h.sources, (settle_bus u).trans h.bus, hconfig.trans h.step.config,
    hstage.trans h.step.stage⟩
  obtain ⟨st, tr, hm, hgone, hwalked⟩ := h.own
  have hstays := settle_noticeStays u i
  obtain ⟨o, sh, ht⟩ := hstays.record _ hm
  have hunplaced : ¬ (i ∈ u.settle.queue p ∨ o.has p = true) := by
    rw [← placedAt_iff ht, hstays.placed, h.unplaced]
    decide
  rw [not_or, Bool.not_eq_true] at hunplaced
  obtain ⟨hunreferenced, hunoffered⟩ := hunplaced
  refine ⟨st, tr, o, sh, ht, fun hshown => ?_, letGo_of_stays hgone hstays, hunreferenced, hunoffered,
    fun hrefs hnone => ?_⟩
  · obtain ⟨m', hm', hshown'⟩ := settle_shown hm hshown
    obtain rfl := Option.some.inj (hm'.symm.trans ht)
    exact hshown'
  · refine ⟨fun q => (s.queue q).length, (hwalked hrefs hnone).of_stays rfl (fun _ => rfl) hm ht hstays.stranded
      hstays.placed, fun q => ?_⟩
    rw [filter_ne_of_not_mem (hrefs q)]
    exact ⟨le_rfl, Nat.le_add_right _ _⟩

end Sys2Proof.Machine

/-! OFFER_EXPIRY and SERVICE_EXPIRY (O21, O22). -/

namespace Sys2Proof.Machine

variable {s : State} {p : Port} {i : Src} {n : Notice}

/-! ### OFFER_EXPIRY (R119, R120) -/

/-- The record of a notice whose offer to p has expired (R119). -/
def Notice.offerExpired (n : Notice) (p : Port) : Notice :=
  { n with offers := n.offers.erase p, offerTimers := n.offerTimers.set p none, tried := n.tried.insert p }

/-- An OFFER_EXPIRY up to its walk. -/
def State.offerExpired (s : State) (p : Port) (i : Src) (n : Notice) : State :=
  (s.setNotice i (some (n.offerExpired p))).withdraw p ⟨i, n.mark, .expired⟩

theorem exec_offerExpiry (hn : s.notice i = some n) (ho : n.offers.has p = true)
    (htimer : n.offerTimers.get p = some 0) :
    exec (.offerExpiry p i) s = .next ((s.offerExpired p i n).walkIfBare i).settle := by
  have hdrop : s.dropOffer p i = s.setNotice i (some (n.offerExpired p)) := by
    unfold State.dropOffer State.modNotice
    rw [hn]
    rfl
  show execOfferExpiry p i s = _
  unfold execOfferExpiry State.expireOffer
  simp only [hn, ho, htimer, beq_self_eq_true, Bool.and_self, if_true, hdrop]
  rfl

theorem offerExpired_letsGo (hn : s.notice i = some n) (hw : n.state = .waiting) (p : Port) :
    LetsGo s (s.offerExpired p i n) p i (n.offerExpired p) ⟨i, n.mark, .expired⟩ := by
  refine setNotice_withdraw_letsGo hw (by simp [Notice.offerExpired]) (by simp [Notice.offerExpired])
    fun n' hn' q hq hoq => ?_
  obtain rfl := Option.some.inj (hn'.symm.trans hn)
  simp [Notice.offerExpired, hoq, Ne.symm hq]

/-- A notice that stands elsewhere is not walked, and no port takes a head: it alone has changed, in its record
(R94, R120). -/
theorem offerExpired_stays (hs : Settled s) (hn : s.notice i = some n) (hw : n.state = .waiting) (hp : i ∉ s.queue p)
    (helse : (∃ q, i ∈ s.queue q) ∨ ∃ q, q ≠ p ∧ n.offers.has q = true) :
    ((s.offerExpired p i n).walkIfBare i).settle.notice i = some (n.offerExpired p) ∧
      ((s.offerExpired p i n).walkIfBare i).settle.delivery = s.delivery ∧
      ((s.offerExpired p i n).walkIfBare i).settle.stranded = s.stranded := by
  have hlets := offerExpired_letsGo hn hw p
  have hplace : (s.offerExpired p i n).hasPlace i = true :=
    hlets.hasPlace_iff.mpr (helse.imp_right fun ⟨q, hq, hoq⟩ => ⟨q, hlets.kept n hn q hq hoq⟩)
  have hwalk : (s.offerExpired p i n).walkIfBare i = s.offerExpired p i n := if_pos hplace
  obtain ⟨hnotices, hdelivery⟩ := settle_of_noneTaken
    (hlets.step.noneTaken hs (hlets.stays hp hplace).sending fun q hq => (hlets.queue q).trans hq)
  rw [hwalk]
  refine ⟨?_, hdelivery.trans rfl, ?_⟩
  · simp only [State.notice, hnotices]
    exact hlets.own
  · simp only [State.stranded, hnotices]
    rfl

/-- Settles O21: the port lets go of the notice, which stays at its other places or is walked. -/
theorem offerExpiryHandsTheNoticeOn : Obligations.OfferExpiryHandsTheNoticeOn := by
  unfold Obligations.OfferExpiryHandsTheNoticeOn
  intro s p i n hn hw ho htimer hp
  have hend := ((offerExpired_letsGo hn hw p).walkIfBare hp).settle
  obtain ⟨st, tr, o, sh, hm, hshown, hgone, hunreferenced, hunoffered, hwalked⟩ := hend.own
  refine ⟨_, exec_offerExpiry hn ho htimer, hend.told,
    ⟨_, hm, hunoffered, hunreferenced, rfl, rfl, hshown, rfl, by simp [Notice.offerExpired], hgone,
      fun hs helse => ?_, fun hrefs hnone => ?_⟩,
    fun hs => ⟨hend.touches hs, hend.links hs⟩, hend.sources, hend.bus, hend.config, hend.stage⟩
  · obtain ⟨hm', hdelivery, hstranded⟩ := offerExpired_stays hs hn hw hp helse
    exact ⟨Option.some.inj (hm.symm.trans hm'), hdelivery, hstranded⟩
  · refine hwalked hrefs fun q => ?_
    by_cases hq : q = p
    · simp [Notice.offerExpired, hq]
    · simp [Notice.offerExpired, hnone q hq]

/-! ### SERVICE_EXPIRY (R124, R126) -/

/-- The record of a notice whose claim by p has been revoked (R124). -/
def Notice.claimRevoked (n : Notice) (p : Port) : Notice :=
  { n with state := .waiting, tried := n.tried.insert p, takeover := true, serviceTimer := none }

/-- A SERVICE_EXPIRY up to its walk. -/
def State.claimRevoked (s : State) (p : Port) (i : Src) (n : Notice) : State :=
  ((s.setNotice i (some (n.claimRevoked p))).withdraw p ⟨i, n.mark, .expired⟩).occur p Cond.takeover

theorem exec_serviceExpiry (hn : s.notice i = some n) (hc : n.state = .claimed p) (htimer : n.serviceTimer = some 0) :
    exec (.serviceExpiry i) s = .next ((s.claimRevoked p i n).walk i).settle := by
  have hrevoke : s.revokeClaim p i = s.setNotice i (some (n.claimRevoked p)) := by
    unfold State.revokeClaim State.modNotice
    rw [hn]
    rfl
  show execServiceExpiry i s = _
  unfold execServiceExpiry State.expireService
  simp only [hn, hc, htimer, if_true, hrevoke]
  rfl

theorem claimRevoked_letsGo (hn : s.notice i = some n) (ho : n.offers.has p = false) :
    LetsGo s (s.claimRevoked p i n) p i (n.claimRevoked p) ⟨i, n.mark, .expired⟩ := by
  have htried : (n.claimRevoked p).tried.has p = true := by simp [Notice.claimRevoked]
  refine (setNotice_withdraw_letsGo (k := n.claimRevoked p) rfl htried ho fun n' hn' q _ hoq => ?_).occur p _
  obtain rfl := Option.some.inj (hn'.symm.trans hn)
  exact hoq

/-- TAKEOVER latches at the former claimant (R126). -/
theorem claimRevoked_latched (s : State) (p : Port) (i : Src) (n : Notice) :
    ((s.claimRevoked p i n).latched p).getLsbD 6 = true := by
  have htakeover : (DevSet.single Cond.takeover).getLsbD 6 = true := by decide
  rw [State.claimRevoked, State.occur, gain_latched, if_pos rfl, BitVec.getLsbD_or, htakeover, Bool.or_true]

/-- Settles O22: the former claimant lets go of the notice, which is walked; TAKEOVER stays latched. -/
theorem serviceExpiryRevokesTheClaim : Obligations.ServiceExpiryRevokesTheClaim := by
  unfold Obligations.ServiceExpiryRevokesTheClaim
  intro s p i n hn hc htimer hp ho
  have hend := ((claimRevoked_letsGo hn ho).walk hp).settle
  have hlatched : LatchedKept (s.claimRevoked p i n) ((s.claimRevoked p i n).walk i).settle :=
    (walk_walkStep _ i).latched.trans (settle_latchedKept _)
  obtain ⟨st, tr, o, sh, hm, hshown, hgone, hunreferenced, hunoffered, hwalked⟩ := hend.own
  refine ⟨_, exec_serviceExpiry hn hc htimer, hend.told, hlatched.getLsbD (claimRevoked_latched s p i n),
    ⟨_, hm, rfl, rfl, rfl, rfl, hshown, rfl, hgone, hunreferenced, hunoffered,
      fun hrefs hempty => hwalked hrefs fun q => ?_⟩,
    fun hs => ⟨hend.touches hs, hend.links hs⟩, hend.sources, hend.bus, hend.config, hend.stage⟩
  show n.offers.has q = false
  rw [hempty, PortSet.has_empty]

end Sys2Proof.Machine

/-! SUPPORT. References designate living notices, whatever an operation does to notices and queues (R75). -/

namespace Sys2Proof.Machine

variable {s t : State} {i : Src} {p : Port}

/-- Every reference designates a living notice (R75). -/
def RefsLive (s : State) : Prop := ∀ p, ∀ i ∈ s.queue p, (s.notice i).isSome = true

theorem RefsLive.of_subset (h : RefsLive s) (hq : ∀ p, ∀ i ∈ t.queue p, i ∈ s.queue p)
    (hn : ∀ i, (s.notice i).isSome = true → (t.notice i).isSome = true) : RefsLive t :=
  fun p i hi => hn i (h p i (hq p i hi))

theorem RefsLive.of_board (h : RefsLive s) (hb : t.board = s.board) : RefsLive t :=
  h.of_subset (fun p _ hi => board_queue hb p ▸ hi) fun i hi => (board_isSome hb i).trans hi

theorem RefsLive.of_eq (h : RefsLive s) (hn : t.notices = s.notices) (hd : t.delivery = s.delivery) : RefsLive t :=
  h.of_subset (fun p i hi => by simpa only [State.queue, hd] using hi) fun i hi => by
    simpa only [State.notice, hn] using hi

/-- A change of the delivery unit that adds no reference. -/
theorem RefsLive.of_offDelivery (h : RefsLive s) (ht : t.offDelivery = s.offDelivery)
    (hq : ∀ p, ∀ i ∈ t.queue p, i ∈ s.queue p) : RefsLive t :=
  h.of_subset hq fun i hi => by
    obtain ⟨-, -, hn, -⟩ := offDelivery_fields ht
    simpa only [State.notice, hn] using hi

theorem RefsLive.foldl {α : Type} {op : State → α → State} (hop : ∀ t x, RefsLive t → RefsLive (op t x)) (l : List α)
    (h : RefsLive s) : RefsLive (l.foldl op s) := NoticeInvariant.foldl hop l h

/-! ### Records and the pass -/

theorem RefsLive.setNotice (h : RefsLive s) (i : Src) (n : Notice) : RefsLive (s.setNotice i (some n)) :=
  h.of_subset (fun _ _ hi => hi) fun j hj => by
    rw [State.notice_setNotice]
    split
    · rfl
    · exact hj

theorem RefsLive.modNotice (h : RefsLive s) (i : Src) (f : Notice → Notice) : RefsLive (s.modNotice i f) := by
  unfold State.modNotice
  split
  · exact h
  · exact h.setNotice i _

theorem RefsLive.setQueue (h : RefsLive s) {l : List Src} (hl : ∀ i ∈ l, i ∈ s.queue p) :
    RefsLive (s.setQueue p l) :=
  h.of_subset (fun q i hi => by
    rw [State.queue_setQueue] at hi
    split at hi
    · subst_vars
      exact hl i hi
    · exact hi) fun _ => id

theorem RefsLive.triggerPass (h : RefsLive s) : RefsLive s.triggerPass :=
  h.of_offDelivery (triggerPass_offDelivery s) fun p _ hi => triggerPass_queue s p ▸ hi

theorem RefsLive.triggerIf (h : RefsLive s) (c : Bool) : RefsLive (s.triggerIf c) := by
  unfold State.triggerIf
  split
  · exact h.triggerPass
  · exact h

theorem RefsLive.removeRefs (h : RefsLive s) (i : Src) : RefsLive (s.removeRefs i) :=
  h.of_offDelivery (removeRefs_offDelivery s i) fun p j hj => by
    rw [removeRefs_queue] at hj
    exact List.mem_of_mem_filter hj

/-! ### Walks (R83 to R87) -/

/-- A walk of a living notice adds references of that notice alone. -/
theorem RefsLive.walkStep (h : RefsLive s) (hi : (s.notice i).isSome = true) (hw : WalkStep s t i) : RefsLive t := by
  intro p j hj
  rw [hw.isSome]
  rcases hw.queue p with hq | ⟨-, hq⟩
  · exact h p j (hq ▸ hj)
  · rcases List.mem_cons.mp (hq.mem_iff.mp hj) with rfl | hj
    · exact hi
    · exact h p j hj

theorem RefsLive.walk (h : RefsLive s) (i : Src) : RefsLive (s.walk i) := by
  cases hn : s.notice i with
  | none =>
    have hnone : s.walk i = s := by
      unfold State.walk
      rw [hn]
    rwa [hnone]
  | some n => exact h.walkStep (by rw [hn]; rfl) (walk_walkStep s i)

theorem RefsLive.walkIfBare (h : RefsLive s) (i : Src) : RefsLive (s.walkIfBare i) := by
  unfold State.walkIfBare
  split
  · exact h
  · exact h.walk i

theorem RefsLive.passStep (h : RefsLive s) : RefsLive s.passStep := by
  have hend {u : State} (hu : RefsLive u) : RefsLive u.endPass :=
    hu.of_offDelivery (endPass_offDelivery u) fun p _ hi => endPass_queue u p ▸ hi
  unfold State.passStep
  split
  · exact h
  · rename_i rest _
    have hrest : RefsLive (s.setPass rest s.delivery.passPending) := h.of_subset (fun _ _ => id) fun _ => id
    dsimp only
    split
    · exact hend (hrest.walk _)
    · exact hend hrest

/-! ### Openings and the end of a notice (R13, R56) -/

theorem RefsLive.openNotice (h : RefsLive s) (i : Src) (conds : CodeSet) : RefsLive (s.openNotice i conds) := by
  have hopened : RefsLive (s.recordOpening i conds) := h.of_subset (fun _ _ => id) fun j hj => by
    by_cases hij : j = i
    · subst hij
      rw [recordOpening_notice]
      rfl
    · rwa [(recordOpening_sourceStep s i conds).notices j hij]
  exact hopened.walk i

/-- A record goes with its references. -/
theorem RefsLive.eraseNotice (h : RefsLive s) (i : Src) : RefsLive (s.eraseNotice i) := by
  intro p j hj
  obtain ⟨-, hgone, -⟩ := eraseNotice_gone s i
  have hne : i ≠ j := fun he => hgone p (he ▸ hj)
  have hj : j ∈ (s.removeRefs i).queue p := hj
  show (((s.removeRefs i).setNotice i none).notice j).isSome = true
  rw [State.notice_setNotice, if_neg hne]
  exact h.removeRefs i p j hj

theorem RefsLive.endNotice (h : RefsLive s) (i : Src) (r : Option Reason) : RefsLive (s.endNotice i r) := by
  have herased {u : State} (hu : RefsLive u) : RefsLive ((u.eraseNotice i).prunePass i) :=
    (hu.eraseNotice i).of_offDelivery (prunePass_offDelivery _ i) fun p _ hj => prunePass_queue _ i p ▸ hj
  unfold State.endNotice
  split
  · exact h
  · exact herased (h.of_board (withdrawAll_board s i _ _))
  · exact herased h

theorem RefsLive.makeClaim (h : RefsLive s) (p : Port) (i : Src) (n : Notice) : RefsLive (s.makeClaim p i n) := by
  have hmade := makeClaim_made s p i n
  refine h.of_subset (fun q j hj => ?_) fun j hj => ?_
  · rw [hmade.queue] at hj
    exact List.mem_of_mem_filter hj
  · rw [hmade.notice]
    split
    · rfl
    · exact hj

/-! ### Reports, failed exchanges and clears (R10 to R17, R58 to R63) -/

theorem RefsLive.applyConditions (h : RefsLive s) (i : Src) (new : CodeSet) : RefsLive (s.applyConditions i new) := by
  unfold State.applyConditions
  split
  · exact h
  · split
    · exact h
    · exact h.openNotice i new
  · split
    · exact h
    · split
      · exact h.setNotice i _
      · exact h
  · exact h

theorem RefsLive.reportArrival (h : RefsLive s) (i : Src) (report : CodeSet) : RefsLive (s.reportArrival i report) := by
  have hnoted : RefsLive (s.noteReport i report) := h
  unfold State.reportArrival
  split
  · exact h
  · exact hnoted.applyConditions i _

theorem RefsLive.failedExchange (h : RefsLive s) (i : Src) : RefsLive (s.failedExchange i) := by
  have hlost : RefsLive (s.losesSource i) := h
  unfold State.failedExchange
  dsimp only
  split
  · exact h
  · split
    · exact hlost.applyConditions i _
    · split <;> exact h

theorem RefsLive.handOutcome (h : RefsLive s) (t : InFlight) (i : Src) (o : BusOutcome) :
    RefsLive (s.handOutcome t i o) := by
  have hovertaken (good : Bool) : RefsLive (s.outcomeAfterClearAll i good) :=
    h.of_board (outcomeAfterClearAll_board s i good)
  unfold State.handOutcome
  cases o with
  | replied r => dsimp only; split; exacts [hovertaken _, h.reportArrival i r]
  | badCheck => dsimp only; split; exacts [hovertaken _, h.failedExchange i]
  | noReply => dsimp only; split; exacts [hovertaken _, h.failedExchange i]

theorem RefsLive.lineQuery (h : RefsLive s) (k : Fin 8) : RefsLive (s.lineQuery k) := by
  have hline (l : LineRt) : RefsLive (s.setLine k l) := h
  unfold State.lineQuery
  dsimp only
  split
  · exact h
  · split
    · exact (hline _).reportArrival _ _
    · exact h

theorem RefsLive.lineRose (h : RefsLive s) (i : Src) : RefsLive (s.lineRose i) := by
  unfold State.lineRose
  split
  · exact h
  · rename_i k _
    have hline : RefsLive (s.setLine k { s.line k with latch := true }) := h
    exact hline.reportArrival i _

theorem RefsLive.clearCompletion (h : RefsLive s) (i : Src) (report : CodeSet) :
    RefsLive (s.clearCompletion i report) := by
  have hcleared : RefsLive (s.cleared i) := h
  rw [clearCompletion_eq]
  split
  · exact hcleared
  · exact hcleared.openNotice i _

theorem RefsLive.clearEffect (h : RefsLive s) (e : ClearEntry) (o : BusOutcome) : RefsLive (s.clearEffect e o) := by
  have hfailed : RefsLive (s.clearFailed e) := by
    have hf := h.failedExchange e.src
    unfold State.clearFailed
    dsimp only
    split
    · exact hf
    · split
      · exact hf.clearCompletion _ _
      · exact hf
  unfold State.clearEffect
  cases o with
  | replied r =>
    have hnoted : RefsLive (s.noteReport e.src r) := h
    dsimp only
    split
    · exact hnoted.clearCompletion _ _
    · exact h
  | badCheck => exact hfailed
  | noReply => exact hfailed

theorem RefsLive.closeNotice (h : RefsLive s) (i : Src) (n : Notice) (effective : CodeSet) :
    RefsLive (s.closeNotice i n effective) := by
  have hclosing : RefsLive ((s.endNotice i none).setSrc i ((s.src i).closing n.conds effective)) := h.endNotice i none
  rw [closeNotice_eq]
  generalize (s.endNotice i none).setSrc i ((s.src i).closing n.conds effective) = u at hclosing ⊢
  unfold State.beginClear
  split
  · exact hclosing
  · have hlatched (k : Fin 8) (l : LineRt) (report : CodeSet) : RefsLive ((u.setLine k l).noteReport i report) :=
      hclosing
    exact (hlatched _ _ _).clearCompletion i _

/-! ### Ports that let go of notices, and writes (R81, R91, R127) -/

theorem RefsLive.revokeAll (h : RefsLive s) (p : Port) : RefsLive (s.revokeAll p) :=
  .foldl (fun _ i ht => (ht.modNotice i _).walkIfBare i) _ (.foldl (fun _ i ht => (ht.modNotice i _).walkIfBare i) _ h)

theorem RefsLive.emptyQueue (h : RefsLive s) (p : Port) : RefsLive (s.emptyQueue p) :=
  .foldl (fun _ i ht => ((ht.setQueue fun _ => List.mem_of_mem_tail).modNotice i _).walkIfBare i) _ h

theorem RefsLive.setBacklog (h : RefsLive s) (q : Port) (limit : Byte) : RefsLive (s.setBacklog q limit) := by
  have hcut : RefsLive (s.cutQueue q limit) :=
    RefsLive.setQueue (s := s.setPortCfg q { s.portCfg q with backlog := limit }) h fun _ => List.mem_of_mem_take
  rw [setBacklog_eq]
  exact .foldl (fun _ i ht => (ht.modNotice i _).walkIfBare i) _ hcut

theorem RefsLive.writeRank (h : RefsLive s) (order : List (Fin 8)) : RefsLive (s.writeRank order) := by
  have hsort {u : State} (hu : RefsLive u) : RefsLive u.reorderQueues := hu.of_subset (fun p i hi => by
    have hq : u.reorderQueues.queue p = sortByKey u.queueKey (u.queue p) := PerPort.get_build _ p
    rwa [hq, (sortByKey_perm _ _).mem_iff] at hi) fun _ => id
  unfold State.writeRank
  split
  · exact h
  · exact hsort (u := { s with config := { s.config with tables := { s.config.tables with order := order } } }) h

theorem RefsLive.writeSource (h : RefsLive s) (i : Src) (new : SourceCfg) : RefsLive (s.writeSource i new) := by
  have hdisable : RefsLive (s.disableSource i) := by
    have hend := h.endNotice i (some .disabled)
    unfold State.disableSource
    dsimp only
    split <;> exact hend
  have henable {u : State} (hu : RefsLive u) : RefsLive (u.enableSource i) := by
    have hlatched (r : SourceRt) (k : Fin 8) (l : LineRt) : RefsLive ((u.setSrc i r).setLine k l) := hu
    unfold State.enableSource
    dsimp only
    split
    · split
      · exact (hlatched _ _ _).reportArrival i _
      · exact hu
    · exact hu
  have hold : RefsLive (if (s.cfg i).enabled && !new.enabled then s.disableSource i else s) := by
    split
    · exact hdisable
    · exact h
  unfold State.writeSource
  dsimp only
  refine RefsLive.triggerIf ?_ _
  split
  · exact henable (u := State.setCfg _ i new) hold
  · exact hold

theorem RefsLive.endAllNotices (h : RefsLive s) : RefsLive s.endAllNotices :=
  RefsLive.foldl (op := fun t i => t.endNotice i (some .cleared)) (fun _ i ht => ht.endNotice i _) _
    (s := s.spendFree _) h

/-! ### The end of an event (R96) -/

theorem RefsLive.settlePort (h : RefsLive s) (p : Port) : RefsLive (s.settlePort p) :=
  h.of_subset (fun q i hi => by
    rw [settlePort_queue] at hi
    exact List.mem_of_mem_filter hi) fun i hi => by
    rw [settlePort_notice]
    split
    · rwa [Option.isSome_map]
    · exact hi

theorem RefsLive.settle (h : RefsLive s) : RefsLive s.settle := ((h.settlePort .A).settlePort .B).settlePort .C

end Sys2Proof.Machine

/-! SUPPORT. What the parts of an event do to the port engines and to the responses that ports are owed (R134 to R137,
R38, R142). -/

namespace Sys2Proof.Machine

variable {s t u : State} {i : Src} {p q : Port} {o : Option Port}

/-! ### Outstanding polls (R38) -/

/-- How many of the entries of a poll queue name p as a requester. -/
def requests (l : List PollEntry) (p : Port) : Nat := (l.filter (fun e => e.requesters.has p)).length

/-- Whether p is a requester of the poll in flight, as a number. -/
def BusState.polls (st : BusState) (p : Port) : Nat :=
  match st with
  | .inFlight t =>
    match t.work with
    | .poll e => boolNat (e.requesters.has p)
    | _ => 0
  | _ => 0

theorem pollCount_eq (s : State) (p : Port) : s.pollCount p = requests s.bus.pollQueue p + s.bus.state.polls p := by
  unfold State.pollCount BusState.polls
  refine congrArg (requests s.bus.pollQueue p + ·) ?_
  rcases s.bus.state with _ | ⟨_ | _ | _ | _, _, _, _⟩ | _ <;> rfl

@[simp] theorem requests_nil (p : Port) : requests [] p = 0 := rfl

theorem requests_cons (e : PollEntry) (l : List PollEntry) (p : Port) :
    requests (e :: l) p = boolNat (e.requesters.has p) + requests l p := by
  unfold requests
  cases h : e.requesters.has p
  · simp [h, boolNat]
  · rw [List.filter_cons_of_pos (by simpa using h), List.length_cons, boolNat, if_pos rfl, Nat.add_comm]

theorem requests_append (l m : List PollEntry) (p : Port) : requests (l ++ m) p = requests l p + requests m p := by
  simp [requests]

/-- Requesters that leave their entries, and entries that leave the queue, leave no more requests. -/
theorem requests_filter_map_le (l : List PollEntry) (f : PollEntry → PollEntry) (keep : PollEntry → Bool) {p : Port}
    (hf : ∀ e, (f e).requesters.has p = true → e.requesters.has p = true) :
    requests ((l.map f).filter keep) p ≤ requests l p := by
  induction l with
  | nil => exact le_rfl
  | cons e l ih =>
    have hle : boolNat ((f e).requesters.has p) ≤ boolNat (e.requesters.has p) := by
      unfold boolNat
      split
      · rename_i h
        rw [if_pos (hf e h)]
      · exact Nat.zero_le _
    rw [List.map_cons, requests_cons]
    by_cases hk : keep (f e) = true
    · rw [List.filter_cons_of_pos hk, requests_cons]
      omega
    · rw [List.filter_cons_of_neg hk]
      omega

/-- What `ResponsesOk` says of the polls alone. -/
structure PollsOk (s : State) : Prop where
  polls : ∀ p, s.pollCount p ≤ 1
  requested : ∀ e ∈ s.bus.pollQueue, e.requesters.isEmpty = false
  once : (s.bus.pollQueue.map (fun e => e.src)).Nodup

theorem ResponsesOk.pollsOk (h : ResponsesOk s) : PollsOk s := ⟨h.polls, h.requested, h.once⟩

theorem PollsOk.of_less (h : PollsOk s) (hc : ∀ p, t.pollCount p ≤ s.pollCount p)
    (hr : ∀ e ∈ t.bus.pollQueue, e.requesters.isEmpty = false)
    (ho : (t.bus.pollQueue.map (fun e => e.src)).Sublist (s.bus.pollQueue.map (fun e => e.src))) : PollsOk t :=
  ⟨fun p => (hc p).trans (h.polls p), hr, h.once.sublist ho⟩

/-! ### The relation -/

/-- Between the engines d and e no frame has joined the request queue and no error has been counted, and the receiver
stands or has entered HUNT. -/
structure LinkKept (d e : PortEngine) : Prop where
  requests : e.requests.length ≤ d.requests.length
  errors : e.errors = d.errors
  rx : e.rx = d.rx ∨ e.rx = .hunt

theorem LinkKept.refl (e : PortEngine) : LinkKept e e := ⟨le_rfl, rfl, .inl rfl⟩

theorem LinkKept.trans {d e f : PortEngine} (h : LinkKept d e) (k : LinkKept e f) : LinkKept d f where
  requests := k.requests.trans h.requests
  errors := k.errors.trans h.errors
  rx := k.rx.elim (fun hk => h.rx.imp hk.trans hk.trans) .inr

/-- The responses that a port has on its list or can still be given without a request of its own: for its outstanding
polls and its STORE (R142). -/
def State.due (s : State) (p : Port) : Nat := (s.eng p).responses.length + s.pollCount p + s.storeCount p

/-- Between s and t no reference has lost its notice, the receivers and request queues stand but for what was dropped,
the polls are in order, and no port is due more responses, but for one more at o. -/
structure Answering (o : Option Port) (s t : State) : Prop where
  live : RefsLive s → RefsLive t
  links : ∀ p, LinkKept (s.eng p) (t.eng p)
  polls : PollsOk s → PollsOk t
  due : PollsOk s → ∀ p, t.due p ≤ s.due p + if o = some p then 1 else 0

theorem Answering.refl (s : State) : Answering none s s :=
  ⟨id, fun _ => .refl _, id, fun _ _ => Nat.le_add_right _ _⟩

theorem Answering.trans (h : Answering none s t) (k : Answering o t u) : Answering o s u where
  live hs := k.live (h.live hs)
  links p := (h.links p).trans (k.links p)
  polls hs := k.polls (h.polls hs)
  due hs p := (k.due (h.polls hs) p).trans (Nat.add_le_add_right (h.due hs p) _)

/-- What follows a response and makes none. -/
theorem Answering.before (h : Answering o s t) (k : Answering none t u) : Answering o s u where
  live hs := k.live (h.live hs)
  links p := (h.links p).trans (k.links p)
  polls hs := k.polls (h.polls hs)
  due hs p := (k.due (h.polls hs) p).trans (h.due hs p)

theorem Answering.weaken (h : Answering none s t) : Answering o s t :=
  ⟨h.live, h.links, h.polls, fun hs p => (h.due hs p).trans (by simp)⟩

theorem Answering.foldl {α : Type} {op : State → α → State} (hop : ∀ t x, Answering none t (op t x)) (l : List α)
    (s : State) : Answering none s (l.foldl op s) :=
  NoticeInvariant.foldl (P := Answering none s) (fun t x h => h.trans (hop t x)) l (.refl s)

theorem storeCount_congr (h : t.config.store = s.config.store) (p : Port) : t.storeCount p = s.storeCount p := by
  unfold State.storeCount
  rw [h]

/-- A part that leaves the port engines, the polls and the STORE alone. -/
theorem Answering.of_parts (live : RefsLive s → RefsLive t) (he : t.engines = s.engines)
    (hq : t.bus.pollQueue = s.bus.pollQueue) (hb : t.bus.state = s.bus.state)
    (hc : t.config.store = s.config.store) : Answering none s t := by
  have heng (p : Port) : t.eng p = s.eng p := by simp only [State.eng, he]
  have hcount (p : Port) : t.pollCount p = s.pollCount p := by rw [pollCount_eq, pollCount_eq, hq, hb]
  refine ⟨live, fun p => heng p ▸ .refl _, fun hs => ?_, fun _ p => ?_⟩
  · exact hs.of_less (fun p => (hcount p).le) (hq ▸ hs.requested) (hq ▸ List.Sublist.refl _)
  · simp only [State.due, heng, hcount, storeCount_congr hc]
    omega

theorem Answering.of_offSources (h : t.offSources = s.offSources) (live : RefsLive s → RefsLive t) :
    Answering none s t := by
  obtain ⟨-, -, hb, he, hc, -⟩ := offSources_fields h
  exact .of_parts live he (by rw [hb]) (by rw [hb]) (by rw [hc])

theorem Answering.of_offNotices (h : t.offNotices = s.offNotices) (live : RefsLive s → RefsLive t) :
    Answering none s t := .of_offSources (offSources_of_offNotices h) live

/-- A part that changes the port engines alone, and gives a response to o at most. -/
theorem Answering.of_engines (h : t.offEngines = s.offEngines) (hl : ∀ p, LinkKept (s.eng p) (t.eng p))
    (hr : ∀ p, (t.eng p).responses.length ≤ (s.eng p).responses.length + if o = some p then 1 else 0) :
    Answering o s t := by
  obtain ⟨-, -, hn, hd, hb, -, hc⟩ := offEngines_fields h
  have hcount (p : Port) : t.pollCount p = s.pollCount p := by rw [pollCount_eq, pollCount_eq, hb]
  refine ⟨fun hs => hs.of_eq hn hd, hl, fun hs => ?_, fun _ p => ?_⟩
  · exact hs.of_less (fun p => (hcount p).le) (hb ▸ hs.requested) (hb ▸ List.Sublist.refl _)
  · have := hr p
    simp only [State.due, hcount, storeCount_congr (congrArg ConfigUnit.store hc)]
    omega

/-- A part that changes the stage and the bus alone, and gives a poll to o at most. -/
theorem Answering.of_bus (h : t.offBus = s.offBus) (hp : PollsOk s → PollsOk t)
    (hc : PollsOk s → ∀ p, t.pollCount p ≤ s.pollCount p + if o = some p then 1 else 0) : Answering o s t := by
  simp only [State.offBus, Prod.mk.injEq] at h
  obtain ⟨-, -, hn, hd, he, -, hconf, -⟩ := h
  have heng (p : Port) : t.eng p = s.eng p := by simp only [State.eng, he]
  refine ⟨fun hs => hs.of_eq hn hd, fun p => heng p ▸ .refl _, hp, fun hs p => ?_⟩
  have := hc hs p
  simp only [State.due, heng, storeCount_congr (congrArg ConfigUnit.store hconf)]
  omega

theorem setEng_answering {e : PortEngine} (hl : LinkKept (s.eng p) e)
    (hr : e.responses.length ≤ (s.eng p).responses.length) : Answering none s (s.setEng p e) := by
  refine .of_engines rfl (fun q => ?_) fun q => ?_
  · rw [State.eng_setEng]
    split
    · subst_vars
      exact hl
    · exact .refl _
  · rw [State.eng_setEng]
    split
    · subst_vars
      exact hr
    · exact le_rfl

/-- An engine that keeps its receiver, its request queue, its error counts and its response list. -/
theorem setEng_answering_of_eq {e : PortEngine} (hq : e.requests = (s.eng p).requests)
    (he : e.errors = (s.eng p).errors) (hx : e.rx = (s.eng p).rx) (hr : e.responses = (s.eng p).responses) :
    Answering none s (s.setEng p e) :=
  setEng_answering ⟨by rw [hq], he, .inl hx⟩ (by rw [hr])

theorem respond_answering (s : State) (p : Port) (r : Response) : Answering (some p) s (s.respond p r) := by
  refine .of_engines rfl (fun q => ?_) fun q => ?_
  · rw [respond_eng]
    split
    · subst_vars
      exact ⟨le_rfl, rfl, .inl rfl⟩
    · exact .refl _
  · rw [respond_eng]
    split
    · subst_vars
      simp
    · exact Nat.le_add_right _ _

theorem withdraw_answering (s : State) (p : Port) (w : Withdrawal) : Answering none s (s.withdraw p w) :=
  setEng_answering_of_eq rfl rfl rfl rfl

/-! ### Notices, walks and sources -/

theorem triggerPass_answering (s : State) : Answering none s s.triggerPass :=
  .of_offNotices (offNotices_of_offDelivery (triggerPass_offDelivery s)) fun h => h.triggerPass

theorem triggerIf_answering (s : State) (c : Bool) : Answering none s (s.triggerIf c) :=
  .of_offNotices (offNotices_of_offDelivery (triggerIf_offDelivery s c)) fun h => h.triggerIf c

theorem modNotice_answering (s : State) (i : Src) (f : Notice → Notice) : Answering none s (s.modNotice i f) :=
  .of_offNotices (modNotice_rest s i f).1 fun h => h.modNotice i f

theorem walk_answering (s : State) (i : Src) : Answering none s (s.walk i) :=
  .of_offNotices (walk_offNotices s i) fun h => h.walk i

theorem walkIfBare_answering (s : State) (i : Src) : Answering none s (s.walkIfBare i) :=
  .of_offNotices (walkIfBare_offNotices s i) fun h => h.walkIfBare i

theorem reportArrival_answering (s : State) (i : Src) (report : CodeSet) :
    Answering none s (s.reportArrival i report) :=
  .of_offSources (reportArrival_offSources s i report) fun h => h.reportArrival i report

theorem handOutcome_answering (s : State) (t : InFlight) (i : Src) (o : BusOutcome) :
    Answering none s (s.handOutcome t i o) :=
  .of_offSources (handOutcome_offSources s t i o) fun h => h.handOutcome t i o

theorem lineQuery_answering (s : State) (k : Fin 8) : Answering none s (s.lineQuery k) :=
  .of_offSources (lineQuery_offSources s k) fun h => h.lineQuery k

theorem passStep_offNotices (s : State) : s.passStep.offNotices = s.offNotices := by
  have hend (u : State) : u.endPass.offNotices = u.offNotices := offNotices_of_offDelivery (endPass_offDelivery u)
  unfold State.passStep
  split
  · rfl
  · dsimp only
    split
    · exact (hend _).trans (walk_offNotices _ _)
    · exact hend _

/-- The end of a notice gives its ports withdrawals alone. -/
theorem endNotice_answering (s : State) (i : Src) (r : Option Reason) : Answering none s (s.endNotice i r) := by
  have hwithdrawn (n : Notice) (r : Reason) : Answering none s (s.withdrawAll i n r) := by
    refine NoticeInvariant.foldl (P := Answering none s) (fun t q h => ?_) Port.all (.refl s)
    split
    · exact h.trans (withdraw_answering t q _)
    · exact h
  have herased (t : State) : Answering none t ((t.eraseNotice i).prunePass i) :=
    .of_offNotices ((offNotices_of_offDelivery (prunePass_offDelivery _ i)).trans (eraseNotice_offNotices t i))
      fun h => (h.eraseNotice i).of_offDelivery (prunePass_offDelivery _ i) fun q _ hj => prunePass_queue _ i q ▸ hj
  unfold State.endNotice
  split
  · exact .refl s
  · exact (hwithdrawn _ _).trans (herased _)
  · exact herased s

theorem makeClaim_answering (s : State) (p : Port) (i : Src) (n : Notice) : Answering none s (s.makeClaim p i n) := by
  have hmade := makeClaim_made s p i n
  have hcount (q : Port) : (s.makeClaim p i n).pollCount q = s.pollCount q := by
    rw [pollCount_eq, pollCount_eq, hmade.bus]
  refine ⟨fun h => h.makeClaim p i n, fun q => ?_, fun h => ?_, fun _ q => ?_⟩
  · rw [hmade.eng]
    exact ⟨le_rfl, rfl, .inl rfl⟩
  · exact h.of_less (fun q => (hcount q).le) (hmade.bus ▸ h.requested) (hmade.bus ▸ List.Sublist.refl _)
  · simp only [State.due, hmade.eng, hcount, storeCount_congr (congrArg ConfigUnit.store hmade.config)]
    omega

theorem closeNotice_answering (s : State) (i : Src) (n : Notice) (effective : CodeSet) :
    Answering none s (s.closeNotice i n effective) := by
  rw [closeNotice_eq]
  refine (endNotice_answering s i none).trans ?_
  generalize s.endNotice i none = t
  have hclosing : Answering none t (t.setSrc i ((s.src i).closing n.conds effective)) := .of_offSources rfl id
  refine hclosing.trans ?_
  generalize t.setSrc i ((s.src i).closing n.conds effective) = u
  unfold State.beginClear
  split
  · exact .of_parts id rfl rfl rfl rfl
  · rename_i k _
    have hlatched (l : LineRt) (report : CodeSet) : Answering none u ((u.setLine k l).noteReport i report) :=
      .of_offSources rfl id
    exact (hlatched _ _).trans (.of_offSources (clearCompletion_offSources _ i _) fun h => h.clearCompletion i _)

theorem clearCompletion_answering (s : State) (i : Src) (report : CodeSet) :
    Answering none s (s.clearCompletion i report) :=
  .of_offSources (clearCompletion_offSources s i report) fun h => h.clearCompletion i report

theorem clearEffect_answering (s : State) (e : ClearEntry) (o : BusOutcome) :
    Answering none s (s.clearEffect e o) := by
  have hfailed : Answering none s (s.clearFailed e) := by
    have hf : Answering none s (s.failedExchange e.src) :=
      .of_offSources (failedExchange_offSources s e.src) fun h => h.failedExchange e.src
    unfold State.clearFailed
    dsimp only
    split
    · exact hf.trans (.of_parts id rfl rfl rfl rfl)
    · split
      · exact hf.trans (clearCompletion_answering _ _ _)
      · exact hf
  unfold State.clearEffect
  cases o with
  | replied r =>
    have hnoted : Answering none s (s.noteReport e.src r) := .of_offSources rfl id
    dsimp only
    split
    · exact hnoted.trans (clearCompletion_answering _ _ _)
    · exact .refl s
  | badCheck => exact hfailed
  | noReply => exact hfailed

/-! ### The field bus (R38 to R43) -/

/-- A transaction that opens with the queue l left takes its own poll off the queue at most. -/
theorem openTransaction_answering {l : List PollEntry} {w : BusWork} {b : FieldBus} (hl : b.pollQueue = l)
    (hq : s.bus.pollQueue = l ∧ (∀ e, w ≠ .poll e) ∨ ∃ e, s.bus.pollQueue = e :: l ∧ w = .poll e) :
    Answering none s ((s.setBus b).openTransaction w) := by
  subst hl
  have hqueue : ((s.setBus b).openTransaction w).bus.pollQueue = b.pollQueue := rfl
  have hsub : (b.pollQueue).Sublist s.bus.pollQueue := by
    rcases hq with ⟨hq, -⟩ | ⟨e, hq, -⟩ <;> rw [hq]
    exact List.sublist_cons_self _ _
  have hcount (p : Port) : ((s.setBus b).openTransaction w).pollCount p ≤ s.pollCount p := by
    rw [pollCount_eq, pollCount_eq, hqueue]
    rcases hq with ⟨hq, hw⟩ | ⟨e, hq, rfl⟩ <;> rw [hq]
    · have hnone : ((s.setBus b).openTransaction w).bus.state.polls p = 0 := by
        cases w with
        | poll e => exact absurd rfl (hw e)
        | bid => rfl
        | scan i => rfl
        | clear e d => rfl
      omega
    · have hflight : ((s.setBus b).openTransaction (.poll e)).bus.state.polls p = boolNat (e.requesters.has p) := rfl
      rw [requests_cons]
      omega
  exact .of_bus rfl (fun hs => hs.of_less hcount (fun e he => hs.requested e (hsub.subset he)) (hsub.map _))
    fun _ => hcount

theorem choose_answering (s : State) : Answering none s s.choose := by
  have hopen {w : BusWork} (hw : ∀ e, w ≠ .poll e) : Answering none s (s.openTransaction w) :=
    openTransaction_answering (b := s.bus) rfl (.inl ⟨rfl, hw⟩)
  by_cases hbid : s.BidDue
  · rw [choose_bid hbid]
    exact hopen nofun
  · rw [choose_work hbid]
    split
    · exact openTransaction_answering rfl (.inl ⟨rfl, nofun⟩)
    · split
      · rename_i e rest hq
        exact openTransaction_answering rfl (.inr ⟨e, hq, rfl⟩)
      · split
        · exact hopen nofun
        · exact .refl s

theorem arbiter_answering (s : State) : Answering none s s.arbiter := by
  unfold State.arbiter
  split
  · obtain ⟨hbus, -⟩ := advanceScan_bus s
    have hoff := advanceScan_offBus s
    simp only [State.offBus, Prod.mk.injEq] at hoff
    obtain ⟨-, -, hn, hd, he, -, hconf, -⟩ := hoff
    have hadvance : Answering none s s.advanceScan :=
      .of_parts (fun h => h.of_eq hn hd) he (by rw [hbus]) (by rw [hbus]) (by rw [hconf])
    exact hadvance.trans (choose_answering _)
  · exact .refl s

theorem bidFailed_answering (s : State) : Answering none s s.bidFailed := .of_parts id rfl rfl rfl rfl

theorem moveCursor_answering (s : State) (o : BusOutcome) : Answering none s (s.moveCursor o) := by
  unfold State.moveCursor
  repeat' split
  all_goals exact .of_parts id rfl rfl rfl rfl

/-- A transaction that ends leaves the requesters of its poll without one. -/
theorem endTransaction_answering (s : State) (g : InFlight) (kind : PrevKind) (ack : AckSlot) :
    Answering none s (s.endTransaction g kind ack) := by
  have hcount (p : Port) : (s.endTransaction g kind ack).pollCount p ≤ s.pollCount p := by
    rw [pollCount_eq, pollCount_eq]
    exact Nat.add_le_add_left (Nat.zero_le _) _
  exact .of_bus rfl (fun hs => hs.of_less hcount hs.requested (List.Sublist.refl _)) fun _ => hcount

theorem bidEffect_answering (s : State) (g : InFlight) (o : BidOutcome) : Answering none s (s.bidEffect g o) := by
  unfold State.bidEffect
  cases o with
  | won i r => exact (handOutcome_answering s g i (.replied r)).trans (.of_parts id rfl rfl rfl rfl)
  | garbled i => exact (handOutcome_answering s g i .badCheck).trans (bidFailed_answering _)
  | stray => exact bidFailed_answering s
  | empty => exact bidFailed_answering s

/-- A baseline scan begins (R186). -/
theorem beginScan_answering (s : State) : Answering none s s.beginScan := by
  have hscan : Answering none s { s with stage := .scanning } := .of_parts id rfl rfl rfl rfl
  have hlines := Answering.foldl lineQuery_answering (List.finRange 8) { s with stage := .scanning }
  unfold State.beginScan
  dsimp only
  generalize (List.finRange 8).foldl (fun t k => t.lineQuery k) { s with stage := .scanning } = t at hlines ⊢
  have hcursor : Answering none t (t.setBus { t.bus with cursor := 1, attempts := 0 }) := .of_parts id rfl rfl rfl rfl
  exact ((hscan.trans hlines).trans hcursor).trans (arbiter_answering _)

/-! ### Responses to the requesters of a poll (R39, R45) -/

/-- Each requester of a poll is given one response. -/
theorem foldl_respond_toList (v : PortSet) (r : Response) (s : State) :
    (v.toList.foldl (fun t q => t.respond q r) s).offEngines = s.offEngines ∧
      ∀ p, (v.toList.foldl (fun t q => t.respond q r) s).eng p = { s.eng p with
        responses := (s.eng p).responses ++ if v.has p then [r] else [] } := by
  refine ⟨foldl_keeps State.offEngines _ (fun t q => respond_offEngines t q r) _ s, fun p => ?_⟩
  have hfold : v.toList.foldl (fun t q => t.respond q r) s =
      Port.all.foldl (fun t q => if v.has q then t.respond q r else t) s := List.foldl_filter
  have hround (t : State) (q : Port) : (if v.has q then t.respond q r else t).eng p = { t.eng p with
      responses := (t.eng p).responses ++ if q = p ∧ v.has p then [r] else [] } := by
    by_cases hq : q = p
    · subst hq
      cases v.has q <;> simp
    · cases v.has q <;> simp [hq]
  rw [hfold]
  simp only [Port.all, List.foldl, hround]
  cases p <;> simp

/-- What responses to the requesters of a poll do to each port. -/
theorem foldl_respond_due (v : PortSet) (r : Response) (s : State) (p : Port) :
    (v.toList.foldl (fun t q => t.respond q r) s).due p = s.due p + boolNat (v.has p) := by
  obtain ⟨hoff, heng⟩ := foldl_respond_toList v r s
  obtain ⟨-, -, -, -, hb, -, hc⟩ := offEngines_fields hoff
  simp only [State.due, heng, pollCount_eq, hb, storeCount_congr (congrArg ConfigUnit.store hc), boolNat,
    List.length_append]
  cases v.has p <;> simp
  omega

/-- The requesters of a poll that has left the bus are answered: each port is due what it was. -/
theorem Answering.answered {v : PortSet} (h : Answering none s t) (hdue : PollsOk s → ∀ p, t.due p + boolNat (v.has p) ≤ s.due p)
    (r : Response) : Answering none s (v.toList.foldl (fun u q => u.respond q r) t) := by
  obtain ⟨hoff, heng⟩ := foldl_respond_toList v r t
  obtain ⟨-, -, hn, hd, hb, -⟩ := offEngines_fields hoff
  refine ⟨fun hs => (h.live hs).of_eq hn hd, fun p => (h.links p).trans ?_, fun hs => ?_, fun hs p => ?_⟩
  · rw [heng]
    exact ⟨le_rfl, rfl, .inl rfl⟩
  · exact (h.polls hs).of_less (fun p => by rw [pollCount_eq, pollCount_eq, hb]) (hb ▸ (h.polls hs).requested)
      (hb ▸ List.Sublist.refl _)
  · rw [foldl_respond_due]
    exact (hdue hs p).trans (Nat.le_add_right _ _)

end Sys2Proof.Machine

/-! SUPPORT. What the accepted requests and the other events do to the port engines and to the responses that ports are
owed (R38, R131, R149, R153, R174, R189). -/

namespace Sys2Proof.Machine

variable {s t u : State} {i : Src} {p q : Port} {o : Option Port} {f : Frame}

/-- A change of the configuration unit that gives o a STORE at most. -/
theorem Answering.of_config (c : ConfigUnit)
    (h : ∀ p, State.storeCount { s with config := c } p ≤ s.storeCount p + if o = some p then 1 else 0) :
    Answering o s { s with config := c } := by
  refine ⟨id, fun p => .refl _, fun hs => ⟨hs.polls, hs.requested, hs.once⟩, fun _ p => ?_⟩
  have hp := h p
  show (s.eng p).responses.length + s.pollCount p + State.storeCount { s with config := c } p ≤ _
  unfold State.due
  omega

/-! ### The detach effects (R153) -/

theorem NoticesHoldLess.answering (h : NoticesHoldLess s t) (live : RefsLive s → RefsLive t) : Answering none s t :=
  .of_offNotices h.rest live

/-- Port p leaves the requester sets (R40). -/
theorem dropPolls_answering (s : State) (p : Port) : Answering none s (s.dropPolls p) := by
  have hleft (e : PollEntry) (q : Port) : (e.requesters.erase p).has q = true → e.requesters.has q = true := fun h => by
    rw [PortSet.has_erase, Bool.and_eq_true] at h
    exact h.2
  have hflight (q : Port) : (s.dropPolls p).bus.state.polls q ≤ s.bus.state.polls q := by
    unfold State.dropPolls
    dsimp only [State.setBus]
    rcases s.bus.state with _ | ⟨_ | e | _ | _, _, _, _⟩ | _
    case inFlight.poll =>
      show boolNat ((e.requesters.erase p).has q) ≤ boolNat (e.requesters.has q)
      unfold boolNat
      split
      · rename_i h
        rw [if_pos (hleft e q h)]
      · exact Nat.zero_le _
    all_goals exact le_rfl
  have hcount (q : Port) : (s.dropPolls p).pollCount q ≤ s.pollCount q := by
    rw [pollCount_eq, pollCount_eq]
    exact Nat.add_le_add (requests_filter_map_le _ _ _ (fun e => hleft e q)) (hflight q)
  refine .of_bus rfl (fun hs => hs.of_less hcount (fun e he => ?_) ?_) fun _ => hcount
  · obtain ⟨-, he⟩ := List.mem_filter.mp he
    simpa using he
  · have hsrc : (s.bus.pollQueue.map fun e => ({ e with requesters := e.requesters.erase p } : PollEntry)).map
        (fun e => e.src) = s.bus.pollQueue.map (fun e => e.src) := by
      rw [List.map_map]
      rfl
    rw [← hsrc]
    exact List.filter_sublist.map _

theorem dropRight_answering (s : State) (p : Port) : Answering none s (s.dropRight p) :=
  .of_config _ fun q => by
    unfold State.storeCount
    dsimp only
    rcases s.config.store with _ | ⟨t, _ | r⟩
    · exact Nat.le_add_right _ _
    · exact Nat.le_add_right _ _
    · by_cases hr : r = p
      · simp [hr]
      · simp [hr]

theorem emptyLists_answering (s : State) (p : Port) (st : PortState) : Answering none s (s.emptyLists p st) :=
  setEng_answering ⟨Nat.zero_le _, rfl, .inl rfl⟩ (Nat.zero_le _)

theorem detachEffects_answering (s : State) (p : Port) (st : PortState) : Answering none s (s.detachEffects p st) := by
  have hrevoked := (revokeAll_frees s p).1.answering fun h => h.revokeAll p
  have hemptied := (emptyQueue_empties (s.revokeAll p) p).1.answering fun h => h.emptyQueue p
  unfold State.detachEffects
  split
  · exact (((hrevoked.trans hemptied).trans (dropPolls_answering _ p)).trans (dropRight_answering _ p)).trans
      (emptyLists_answering _ p st)
  · exact emptyLists_answering s p st

theorem cutLink_answering (s : State) (p : Port) : Answering none s (s.cutLink p) := by
  have hcut (x : Transmitter) : Answering none s (s.setEng p { s.eng p with rx := .hunt, lost := false, tx := x }) :=
    setEng_answering ⟨le_rfl, rfl, .inr rfl⟩ le_rfl
  have hsignalled (u : State) : Answering none u (u.setSignalled p 0) := .of_parts id rfl rfl rfl rfl
  exact (hcut _).trans (hsignalled _)

theorem breakPort_answering (s : State) (p : Port) : Answering none s (s.breakPort p) :=
  ((detachEffects_answering s p .detached).trans (cutLink_answering _ p)).trans (triggerIf_answering _ _)

/-! ### The end of a frame, and the timers -/

theorem frameEnded_answering (s : State) (p : Port) (x : TxFrame) : Answering none s (s.frameEnded p x) := by
  have hclear (t : State) : Answering none t (t.autoClear p) := .of_parts id rfl rfl rfl rfl
  have hend (t : State) : Answering none t ((t.autoClear p).setEng p { t.eng p with tx := .idle }) :=
    (hclear t).trans (setEng_answering_of_eq rfl rfl rfl rfl)
  unfold State.frameEnded
  dsimp only
  split
  · exact (modNotice_answering s _ _).trans (hend _)
  · exact (setEng_answering_of_eq (p := p) (e := { s.eng p with ratePending := rateSent (s.eng p).ratePending })
      rfl rfl rfl rfl).trans (hend _)
  · exact hend s

theorem lineRose_answering (s : State) (i : Src) : Answering none s (s.lineRose i) := by
  have hlatched (k : Fin 8) (l : LineRt) : Answering none s (s.setLine k l) := .of_parts id rfl rfl rfl rfl
  unfold State.lineRose
  split
  · exact .refl s
  · exact (hlatched _ _).trans (reportArrival_answering _ i _)

theorem tickTimers_answering (s : State) : Answering none s s.tickTimers :=
  .of_parts (fun h => h.of_board (tickTimers_board s)) rfl rfl rfl rfl

theorem expireOffer_answering (s : State) (p : Port) (i : Src) (n : Notice) :
    Answering none s (s.expireOffer p i n) :=
  ((modNotice_answering s i _).trans (withdraw_answering _ p _)).trans (walkIfBare_answering _ i)

theorem expireService_answering (s : State) (p : Port) (i : Src) (n : Notice) :
    Answering none s (s.expireService p i n) := by
  have hoccur (t : State) : Answering none t (t.occur p Cond.takeover) := .of_parts id rfl rfl rfl rfl
  exact (((modNotice_answering s i _).trans (withdraw_answering _ p _)).trans (hoccur _)).trans (walk_answering _ i)

theorem passStep_answering (s : State) : Answering none s s.passStep :=
  .of_offNotices (passStep_offNotices s) fun h => h.passStep

/-! ### The ends of a poll and of a STORE (R39, R180) -/

/-- A poll that ends takes its requesters off the bus and answers each (R39). -/
theorem pollEnd_answering {g : InFlight} {e : PollEntry} (hg : s.bus.state = .inFlight g) (hw : g.work = .poll e)
    (ack : AckSlot) (out : BusOutcome) (r : Response) :
    Answering none s (e.requesters.toList.foldl (fun u p => u.respond p r)
      ((s.endTransaction g .work ack).handOutcome g e.src out)) := by
  have hended := endTransaction_answering s g .work ack
  have hhanded := handOutcome_answering (s.endTransaction g .work ack) g e.src out
  refine (hended.trans hhanded).answered (fun hs p => ?_) r
  have hflight : s.bus.state.polls p = boolNat (e.requesters.has p) := by
    unfold BusState.polls
    rw [hg]
    dsimp only
    rw [hw]
  have hover : (s.endTransaction g .work ack).bus.state.polls p = 0 := rfl
  have hqueue : (s.endTransaction g .work ack).bus.pollQueue = s.bus.pollQueue := rfl
  have heng : (s.endTransaction g .work ack).eng p = s.eng p := rfl
  have hstore : (s.endTransaction g .work ack).storeCount p = s.storeCount p := rfl
  have hdue := hhanded.due (hended.polls hs) p
  simp only [State.due, pollCount_eq, heng, hstore, hover, hqueue] at hdue
  simp only [State.due, pollCount_eq, hflight]
  simp only [reduceCtorEq, if_false] at hdue
  omega

/-- A STORE that ends is answered where it still has a recipient (R180). -/
theorem completeStore_answering {x : Tables} {dest : Option Port} (hst : s.config.store = .writing x dest)
    (content : List Byte) (check : BitVec 16) : Answering none s (s.completeStore x dest content check) := by
  have hidle (image : StoreImage) (blank fault : Bool) (c : ConfigUnit) (hc : c = { s.config with
      store := .idle, image := image, storeBlank := blank, storeFault := fault }) :
      Answering none s (State.latchRisen s { s with config := c }) ∧
        ∀ p, (State.latchRisen s { s with config := c }).due p + s.storeCount p = s.due p := by
    have hnone (p : Port) : State.storeCount { s with config := c } p = 0 := by
      rw [hc]
      rfl
    have hconfig : Answering none s { s with config := c } := .of_config c fun p => by
      rw [hnone]
      exact Nat.zero_le _
    refine ⟨hconfig.trans (.of_parts id rfl rfl rfl rfl), fun p => ?_⟩
    show (s.eng p).responses.length + s.pollCount p + State.storeCount { s with config := c } p + _ = _
    rw [hnone]
    rfl
  have hgive {u : State} {p : Port} (hp : dest = some p)
      (h : Answering none s u ∧ ∀ q, u.due q + s.storeCount q = s.due q) (r : Response) :
      Answering none s (u.respond p r) := by
    obtain ⟨hans, hdue⟩ := h
    have hgiven := respond_answering u p r
    refine ⟨fun hs => hans.live hs, fun q => (hans.links q).trans (hgiven.links q),
      fun hs => hgiven.polls (hans.polls hs), fun hs q => ?_⟩
    have howed : s.storeCount q = if p = q then 1 else 0 := by simp only [State.storeCount, hst, hp]
    have := hgiven.due (hans.polls hs) q
    have := hdue q
    simp only [Option.some.injEq] at *
    omega
  unfold State.completeStore
  dsimp only
  split
  · exact hgive rfl (hidle _ _ _ _ rfl) _
  · exact (hidle _ _ _ _ rfl).1

/-! ### Requests (chapters 8 to 10) -/

theorem setPortState_answering (s : State) (p : Port) (st : PortState) : Answering none s (s.setPortState p st) :=
  setEng_answering_of_eq rfl rfl rfl rfl

theorem decideAttach_answering (s : State) (p : Port) (f : Frame) : Answering (some p) s (s.decideAttach p f) := by
  unfold State.decideAttach
  dsimp only
  split
  · exact (Answering.refl s).weaken
  · exact ((setPortState_answering s p _).trans (triggerPass_answering _)).trans (respond_answering _ p _)
  · split
    · exact (setPortState_answering s p _).trans (respond_answering _ p _)
    · exact respond_answering s p _
  · split
    · exact (setPortState_answering s p _).trans (respond_answering _ p _)
    · exact respond_answering s p _

theorem decideDetach_answering (s : State) (p : Port) (f : Frame) : Answering (some p) s (s.decideDetach p f) :=
  ((detachEffects_answering s p .detached).trans (triggerIf_answering _ _)).trans (respond_answering _ p _)

theorem decideHold_answering (s : State) (p : Port) (f : Frame) : Answering (some p) s (s.decideHold p f) := by
  unfold State.decideHold
  split
  · exact (setPortState_answering s p _).trans (respond_answering _ p _)
  · exact respond_answering s p _

theorem decideResume_answering (s : State) (p : Port) (f : Frame) : Answering (some p) s (s.decideResume p f) := by
  unfold State.decideResume
  split
  · exact ((setPortState_answering s p _).trans (triggerPass_answering _)).trans (respond_answering _ p _)
  · exact respond_answering s p _

theorem decideClaim_answering (s : State) (p : Port) (f : Frame) : Answering (some p) s (s.decideClaim p f) := by
  have hclaimed (n : Notice) : Answering (some p) s (s.claimOffered p f n) := by
    have hmade := makeClaim_answering s p f.src n
    unfold State.claimOffered
    dsimp only
    split
    · exact (hmade.trans (modNotice_answering _ _ _)).trans (respond_answering _ p _)
    · exact ((hmade.trans (closeNotice_answering _ _ _ _)).trans (respond_answering _ p _)).before
        (arbiter_answering _)
  unfold State.decideClaim
  split
  · exact respond_answering s p _
  · split
    · split <;> exact respond_answering s p _
    · split
      · exact hclaimed _
      · exact respond_answering s p _
    · exact respond_answering s p _

theorem decideRelease_answering (s : State) (p : Port) (f : Frame) : Answering (some p) s (s.decideRelease p f) := by
  unfold State.decideRelease
  split
  · exact respond_answering s p _
  · rename_i n _
    split
    · have hreleased : Answering none s (s.setNotice f.src
          (some { n with state := .waiting, tried := n.tried.insert p, serviceTimer := none })) :=
        .of_offNotices rfl fun h => h.setNotice _ _
      exact (hreleased.trans (respond_answering _ p _)).before (walk_answering _ _)
    · exact respond_answering s p _

theorem decideClose_answering (s : State) (p : Port) (f : Frame) : Answering (some p) s (s.decideClose p f) := by
  unfold State.decideClose
  split
  · exact respond_answering s p _
  · split
    · exact ((closeNotice_answering s _ _ _).trans (respond_answering _ p _)).before (arbiter_answering _)
    · exact respond_answering s p _

theorem decideTakeRight_answering (s : State) (p : Port) (f : Frame) :
    Answering (some p) s (s.decideTakeRight p f) := by
  have hright (r : Option Port) : Answering none s (s.setRight r) := .of_parts id rfl rfl rfl rfl
  unfold State.decideTakeRight
  split
  · exact (hright _).trans (respond_answering _ p _)
  · split <;> exact respond_answering s p _

theorem decideGiveRight_answering (s : State) (p : Port) (f : Frame) :
    Answering (some p) s (s.decideGiveRight p f) := by
  have hright (r : Option Port) : Answering none s (s.setRight r) := .of_parts id rfl rfl rfl rfl
  unfold State.decideGiveRight
  split
  · exact (hright _).trans (respond_answering _ p _)
  · exact respond_answering s p _

/-- An accepted STORE owes its response to its port, and no other is then being written (R179). -/
theorem decideStore_answering (s : State) (p : Port) (f : Frame) : Answering (some p) s (s.decideStore p f) := by
  unfold State.decideStore
  split
  · exact respond_answering s p _
  · split
    · exact respond_answering s p _
    · refine .of_config _ fun q => ?_
      show (if p = q then 1 else 0) ≤ _
      simp

theorem decideAck_answering (s : State) (p : Port) (f : Frame) : Answering (some p) s (s.decideAck p f) := by
  have hack : Answering none s (s.acknowledge p (f.byte 0)) := .of_parts id rfl rfl rfl rfl
  exact hack.trans (respond_answering _ p _)

theorem decideResumeField_answering (s : State) (p : Port) (fatLow : Bool) (f : Frame) :
    Answering (some p) s (s.decideResumeField p fatLow f) := by
  have hlifted : Answering none s (s.setBus { s.bus with bidRun := 0, suspended := false }) :=
    .of_parts id rfl rfl rfl rfl
  have hsample (u : State) : Answering none u (u.sampleFat fatLow) := .of_parts id rfl rfl rfl rfl
  have hanswered := hlifted.trans (respond_answering _ p (f.answer .ok []))
  unfold State.decideResumeField
  dsimp only
  split
  · exact (hanswered.before (hsample _)).before (arbiter_answering _)
  · exact hanswered

end Sys2Proof.Machine

/-! SUPPORT. What POLL, the writes and CLEAR_ALL do to the port engines and to the responses that ports are owed (R38,
R45, R174, R189). -/

namespace Sys2Proof.Machine

variable {s t u : State} {i : Src} {p q : Port} {f : Frame}

/-! ### POLL (R38, R159) -/

/-- A port with no poll outstanding is counted nowhere. -/
theorem pollCount_of_free (h : s.pollOutstanding p = false) :
    requests s.bus.pollQueue p = 0 ∧ s.bus.state.polls p = 0 := by
  have hno : ¬ s.pollOutstanding p = true := by simp [h]
  rw [pollOutstanding_iff, not_or] at hno
  obtain ⟨hqueue, hflight⟩ := hno
  refine ⟨?_, ?_⟩
  · unfold requests
    rw [List.length_eq_zero_iff, List.filter_eq_nil_iff]
    exact fun e he hp => hqueue ⟨e, he, hp⟩
  · unfold BusState.polls
    split
    · split
      · rename_i g hg _ e hw
        unfold boolNat
        exact if_neg fun hp => hflight ⟨g, e, hg, hw, hp⟩
      · rfl
    · rfl

/-- A queue in which p joins the one entry of i gives p at most one request more, and no other port one. -/
theorem requests_join {l : List PollEntry} (h : (l.map (fun e => e.src)).Nodup) (i : Src) (p q : Port) :
    requests (l.map (fun e => if e.src = i then { e with requesters := e.requesters.insert p } else e)) q ≤
      requests l q + if p = q then 1 else 0 := by
  induction l with
  | nil => exact Nat.zero_le _
  | cons e l ih =>
    obtain ⟨hnew, hl⟩ := List.nodup_cons.mp h
    rw [List.map_cons, requests_cons, requests_cons]
    by_cases he : e.src = i
    · have hrest : l.map (fun e => if e.src = i then { e with requesters := e.requesters.insert p } else e) = l := by
        conv_rhs => rw [← List.map_id l]
        refine List.map_congr_left fun x hx => if_neg fun hxi => hnew ?_
        exact List.mem_map.mpr ⟨x, hx, hxi.trans he.symm⟩
      rw [hrest, if_pos he]
      by_cases hq : p = q
      · simp [hq, boolNat]
        split <;> omega
      · simp [hq, boolNat]
    · rw [if_neg he]
      have := ih hl
      omega

theorem insert_isEmpty (v : PortSet) (p : Port) : (v.insert p).isEmpty = false := by
  rw [Bool.eq_false_iff, ne_eq, PortSet.isEmpty_iff]
  intro h
  simpa using h p

theorem decidePoll_answering (s : State) (p : Port) (f : Frame) : Answering (some p) s (s.decidePoll p f) := by
  unfold State.decidePoll
  dsimp only
  split
  · exact (lineQuery_answering s _).trans (respond_answering _ p _)
  · split
    · exact respond_answering s p _
    · rename_i hfree
      have hcount : s.pollCount p = 0 := by
        rw [pollCount_eq]
        obtain ⟨hq, hb⟩ := pollCount_of_free (by simpa using hfree)
        omega
      have hgain {b : FieldBus} (hb : PollsOk s → ∀ q, requests b.pollQueue q ≤ requests s.bus.pollQueue q +
            if p = q then 1 else 0) (hst : b.state = s.bus.state)
          (hr : PollsOk s → ∀ e ∈ b.pollQueue, e.requesters.isEmpty = false)
          (ho : PollsOk s → (b.pollQueue.map (fun e => e.src)).Nodup) : Answering (some p) s (s.setBus b) := by
        have hle (hs : PollsOk s) (q : Port) : (s.setBus b).pollCount q ≤ s.pollCount q + if p = q then 1 else 0 := by
          have := hb hs q
          rw [pollCount_eq, pollCount_eq, State.bus_setBus, hst]
          omega
        refine .of_bus rfl (fun hs => ⟨fun q => ?_, hr hs, ho hs⟩) fun hs q => by simpa using hle hs q
        have := hle hs q
        by_cases hq : p = q
        · subst hq
          simp only [if_true] at this
          omega
        · simp only [if_neg hq] at this
          exact this.trans (hs.polls q)
      split
      · refine hgain (fun hs q => requests_join hs.once _ p q) rfl (fun hs e he => ?_) fun hs => ?_
        · obtain ⟨x, hx, rfl⟩ := List.mem_map.mp he
          split
          · exact insert_isEmpty _ p
          · exact hs.requested x hx
        · rw [List.map_map]
          convert hs.once using 2
          funext e
          dsimp only [Function.comp]
          split <;> rfl
      · rename_i hnone
        refine (hgain (b := { s.bus with pollQueue := s.bus.pollQueue ++ [⟨f.src, PortSet.empty.insert p⟩] })
          (fun _ q => ?_) rfl (fun hs e he => ?_) fun hs => ?_).before (arbiter_answering _)
        · rw [requests_append, requests_cons]
          by_cases hq : p = q <;> simp [hq, boolNat]
        · rcases List.mem_append.mp he with he | he
          · exact hs.requested e he
          · rw [List.mem_singleton.mp he]
            exact insert_isEmpty _ p
        · rw [List.map_append, List.nodup_append]
          refine ⟨hs.once, List.nodup_singleton _, fun x hx y hy => ?_⟩
          obtain ⟨e, he, rfl⟩ := List.mem_map.mp hx
          rw [List.map_singleton, List.mem_singleton] at hy
          rintro rfl
          refine hnone (List.any_eq_true.mpr ⟨e, he, ?_⟩)
          rw [hy]
          exact beq_self_eq_true _

/-! ### The writes (R4, R73, R78, R80, R131, R149, R176) -/

theorem setBacklog_answering (s : State) (q : Port) (limit : Byte) : Answering none s (s.setBacklog q limit) := by
  have hcut : Answering none s (s.cutQueue q limit) :=
    .of_parts (fun h => RefsLive.setQueue (s := s.setPortCfg q { s.portCfg q with backlog := limit }) h
      fun _ => List.mem_of_mem_take) rfl rfl rfl rfl
  rw [setBacklog_eq]
  exact hcut.trans (.foldl (fun t i => (evict_holdLess t q i).answering fun h => (h.modNotice i _).walkIfBare i) _ _)

theorem switchPort_answering (s : State) (q : Port) (old new : Bool) : Answering none s (s.switchPort q old new) := by
  unfold State.switchPort
  split
  · exact (detachEffects_answering s q .disabled).trans (cutLink_answering _ q)
  · split
    · exact setEng_answering ⟨Nat.zero_le _, rfl, .inr rfl⟩ (Nat.zero_le _)
    · exact .refl s

theorem writePort_answering (s : State) (p q : Port) (new : PortCfg) : Answering none s (s.writePort p q new) := by
  have hlimit (t : State) : Answering none t
      (if (s.portCfg q).backlog = new.backlog then t else t.setBacklog q new.backlog) := by
    split
    · exact .refl t
    · exact setBacklog_answering t q _
  have hentry (t : State) : Answering none t (t.setPortCfg q new) := .of_parts id rfl rfl rfl rfl
  have hrate (t : State) : Answering none t (if (s.portCfg q).rate = new.rate then t
      else t.pendRate q new.rate (decide (p = q))) := by
    split
    · exact .refl t
    · exact setEng_answering_of_eq rfl rfl rfl rfl
  exact ((((switchPort_answering s q (s.portCfg q).enabled new.enabled).trans (hlimit _)).trans (hentry _)).trans
    (hrate _)).trans (triggerIf_answering _ _)

theorem disableSource_answering (s : State) (i : Src) : Answering none s (s.disableSource i) := by
  have hdiscard (t : State) (l : List ClearEntry) :
      Answering none t (t.setBus { t.bus with clearList := l, state := t.bus.state.discardClear i }) := by
    have hflight (q : Port) : (t.bus.state.discardClear i).polls q = t.bus.state.polls q := by
      unfold BusState.discardClear
      rcases t.bus.state with _ | ⟨_ | _ | _ | _, _, _, _⟩ | _ <;> rfl
    have hcount (q : Port) : (t.setBus { t.bus with clearList := l, state := t.bus.state.discardClear i }).pollCount q
        ≤ t.pollCount q := by
      rw [pollCount_eq, pollCount_eq, State.bus_setBus, hflight]
    exact .of_bus rfl (fun hs => hs.of_less hcount hs.requested (List.Sublist.refl _)) fun _ => hcount
  have hsrc (t : State) (r : SourceRt) : Answering none t (t.setSrc i r) := .of_parts id rfl rfl rfl rfl
  have hline (t : State) (k : Fin 8) (l : LineRt) : Answering none t (t.setLine k l) := .of_parts id rfl rfl rfl rfl
  have hended := endNotice_answering s i (some .disabled)
  unfold State.disableSource
  dsimp only
  split
  · exact ((hended.trans (hdiscard _ _)).trans (hsrc _ _)).trans (hline _ _ _)
  · exact (hended.trans (hdiscard _ _)).trans (hsrc _ _)

theorem enableSource_answering (s : State) (i : Src) : Answering none s (s.enableSource i) := by
  have hlatched (r : SourceRt) (k : Fin 8) (l : LineRt) : Answering none s ((s.setSrc i r).setLine k l) :=
    .of_parts id rfl rfl rfl rfl
  unfold State.enableSource
  dsimp only
  split
  · split
    · exact (hlatched _ _ _).trans (reportArrival_answering _ i _)
    · exact .of_parts id rfl rfl rfl rfl
  · exact .of_parts id rfl rfl rfl rfl

theorem writeSource_answering (s : State) (i : Src) (new : SourceCfg) : Answering none s (s.writeSource i new) := by
  have hcfg (t : State) : Answering none t (t.setCfg i new) := .of_parts id rfl rfl rfl rfl
  have hdisable : Answering none s (if (s.cfg i).enabled && !new.enabled then s.disableSource i else s) := by
    split
    · exact disableSource_answering s i
    · exact .refl s
  unfold State.writeSource
  dsimp only
  generalize (if (s.cfg i).enabled && !new.enabled then s.disableSource i else s) = t at hdisable ⊢
  refine Answering.trans ?_ (triggerIf_answering _ _)
  split
  · exact (hdisable.trans (hcfg t)).trans (enableSource_answering _ i)
  · exact hdisable.trans (hcfg t)

theorem writeRank_answering (s : State) (order : List (Fin 8)) : Answering none s (s.writeRank order) := by
  refine .of_parts (fun h => h.writeRank order) ?_ ?_ ?_ ?_ <;> rw [writeRank_eq] <;> rfl

theorem applyWrite_answering (h : s.applyWrite p f = some t) : Answering none s t := by
  unfold State.applyWrite at h
  dsimp only at h
  split at h
  · obtain ⟨i, -, h⟩ := Option.bind_eq_some_iff.mp h
    obtain ⟨new, -, rfl⟩ := Option.map_eq_some_iff.mp h
    exact writeSource_answering s i new
  · obtain ⟨new, -, rfl⟩ := Option.map_eq_some_iff.mp h
    exact .of_parts id rfl rfl rfl rfl
  · obtain ⟨new, -, rfl⟩ := Option.map_eq_some_iff.mp h
    exact writeRank_answering s new
  · obtain ⟨q, -, h⟩ := Option.bind_eq_some_iff.mp h
    obtain ⟨new, -, rfl⟩ := Option.map_eq_some_iff.mp h
    exact writePort_answering s p q new
  · obtain ⟨new, -, rfl⟩ := Option.map_eq_some_iff.mp h
    exact .of_parts id rfl rfl rfl rfl
  · cases h

theorem decideWrite_answering (s : State) (p : Port) (f : Frame) : Answering (some p) s (s.decideWrite p f) := by
  unfold State.decideWrite
  dsimp only
  split
  · exact respond_answering s p _
  · split
    · exact respond_answering s p _
    · split
      · exact respond_answering s p _
      · rename_i t ht
        unfold State.respondIfOn
        split
        · exact (applyWrite_answering ht).weaken
        · exact (applyWrite_answering ht).trans (respond_answering t p _)

/-! ### CLEAR_ALL (R45, R66, R189) -/

theorem endAllNotices_answering (s : State) : Answering none s s.endAllNotices := by
  have hspend (l : List Src) : Answering none s (s.spendFree l) := .of_parts id rfl rfl rfl rfl
  have hpass (t : State) : Answering none t (t.setPass [] false) := .of_parts id rfl rfl rfl rfl
  exact ((hspend _).trans (.foldl (fun t i => endNotice_answering t i _) _ _)).trans (hpass _)

/-- The requesters of the polls in a list are each given a response for each (R45). -/
theorem cancelPolls_due (l : List PollEntry) (s : State) :
    (l.foldl (fun t e => t.cancelPoll e) s).offEngines = s.offEngines ∧
      (∀ p, LinkKept (s.eng p) ((l.foldl (fun t e => t.cancelPoll e) s).eng p)) ∧
      ∀ p, (l.foldl (fun t e => t.cancelPoll e) s).due p = s.due p + requests l p := by
  induction l generalizing s with
  | nil => exact ⟨rfl, fun _ => .refl _, fun _ => rfl⟩
  | cons e l ih =>
    obtain ⟨hoff, hlinks, hdue⟩ := ih (s.cancelPoll e)
    have heng (p : Port) := (foldl_respond_toList e.requesters ⟨ReqKind.poll.head, .cancelled, [byteOf e.src.num]⟩ s).2 p
    have hlink (p : Port) : LinkKept (s.eng p) ((s.cancelPoll e).eng p) := by
      unfold State.cancelPoll
      rw [heng]
      exact ⟨le_rfl, rfl, .inl rfl⟩
    refine ⟨hoff.trans (cancelPoll_offEngines s e), fun p => (hlink p).trans (hlinks p), fun p => ?_⟩
    rw [List.foldl_cons, hdue, requests_cons, show (s.cancelPoll e).due p = _ from foldl_respond_due _ _ s p]
    omega

/-- The poll queue is emptied by operations that leave its requesters a response for each of its polls (R45). -/
theorem Answering.of_cancelled (hn : t.notices = s.notices) (hd : t.delivery = s.delivery)
    (hlinks : ∀ p, LinkKept (s.eng p) (t.eng p)) (hq : t.bus.pollQueue = [])
    (hb : ∀ p, t.bus.state.polls p ≤ s.bus.state.polls p) (hdue : ∀ p, t.due p ≤ s.due p) : Answering none s t := by
  refine ⟨fun h => h.of_eq hn hd, hlinks, fun hs => hs.of_less (fun p => ?_) ?_ ?_, fun _ p => hdue p⟩
  · rw [pollCount_eq, pollCount_eq, hq]
    exact Nat.add_le_add (Nat.zero_le _) (hb p)
  · rw [hq]
    nofun
  · rw [hq]
    exact List.nil_sublist _

theorem due_eq (s : State) (p : Port) : s.due p =
    (s.eng p).responses.length + (requests s.bus.pollQueue p + s.bus.state.polls p) + s.storeCount p := by
  rw [State.due, pollCount_eq]

/-- The poll in flight is cancelled with the queue empty (R45). -/
theorem cancelFlight_answering {g : InFlight} {e : PollEntry} (hq : s.bus.pollQueue = [])
    (hs : s.bus.state.polls = fun p => boolNat (e.requesters.has p)) (hg : g.work = .poll ⟨i, PortSet.empty⟩) :
    Answering none s ((s.cancelPoll e).setBus { (s.cancelPoll e).bus with state := .inFlight g }) := by
  obtain ⟨hoff, hlinks, hdue⟩ := cancelPolls_due [e] s
  simp only [List.foldl_cons, List.foldl_nil] at hoff hlinks hdue
  obtain ⟨-, -, hn, hd, hbus, -, hconf⟩ := offEngines_fields hoff
  have hnone (p : Port) : (BusState.inFlight g).polls p = 0 := by
    simp only [BusState.polls, hg]
    cases p <;> rfl
  refine .of_cancelled hn hd hlinks (by rw [State.bus_setBus, hbus, hq]) (fun p => ?_) fun p => ?_
  · rw [State.bus_setBus, hnone]
    exact Nat.zero_le _
  · have hgiven := hdue p
    have hstore : (s.cancelPoll e).storeCount p = s.storeCount p := storeCount_congr (congrArg ConfigUnit.store hconf) p
    rw [requests_cons, requests_nil, due_eq, hbus, hstore] at hgiven
    have howed : ((s.cancelPoll e).setBus { (s.cancelPoll e).bus with state := .inFlight g }).due p =
        ((s.cancelPoll e).eng p).responses.length + s.storeCount p := by
      rw [due_eq, State.bus_setBus, hnone, hbus, hq, ← hstore]
      rfl
    rw [howed]
    have := congrFun hs p
    omega

theorem cancelBusWork_answering (s : State) : Answering none s s.cancelBusWork := by
  obtain ⟨hoff, hlinks, hdue⟩ := cancelPolls_due s.bus.pollQueue s
  obtain ⟨-, -, hn, hd, hbus, -, hconf⟩ := offEngines_fields hoff
  unfold State.cancelBusWork
  dsimp only
  generalize s.bus.pollQueue.foldl (fun t e => t.cancelPoll e) s = t at hlinks hdue hn hd hbus hconf ⊢
  have hstore (p : Port) : t.storeCount p = s.storeCount p := storeCount_congr (congrArg ConfigUnit.store hconf) p
  have hkept {b : FieldBus} (hq : b.pollQueue = []) (hb : ∀ p, b.state.polls p = s.bus.state.polls p) :
      Answering none s (t.setBus b) := by
    refine .of_cancelled hn hd hlinks hq (fun p => (hb p).le) fun p => ?_
    have hgiven := hdue p
    simp only [due_eq, hbus, hstore] at hgiven
    have howed : (t.setBus b).due p = (t.eng p).responses.length + (0 + s.bus.state.polls p) + s.storeCount p := by
      rw [due_eq, State.bus_setBus, hq, hb, ← hstore]
      rfl
    rw [howed, due_eq]
    omega
  split
  · rename_i g hg
    have hflight (g' : InFlight) (hw : g'.work = g.work) (p : Port) :
        (BusState.inFlight g').polls p = s.bus.state.polls p := by
      rw [hg]
      simp only [BusState.polls, hw]
    split
    · rename_i e he
      refine (hkept rfl fun p => by rw [hbus]).trans (cancelFlight_answering rfl ?_ rfl)
      funext p
      rw [State.bus_setBus, hbus]
      simp only [hg, BusState.polls, he]
    · exact hkept rfl fun p => hflight _ rfl p
  · exact hkept rfl fun p => by rw [hbus]

theorem acceptClearAll_answering (s : State) (p : Port) (f : Frame) :
    Answering (some p) s (s.acceptClearAll p f) := by
  have hsources (t : State) : Answering none t t.clearSources := .of_parts id rfl rfl rfl rfl
  exact ((((endAllNotices_answering s).trans (hsources _)).trans (cancelBusWork_answering _)).trans
    (respond_answering _ p _)).before (beginScan_answering _)

end Sys2Proof.Machine

/-! Every step keeps the bounds of the port engines and of their responses (O54), and leaves every transmitter settled
(O60). -/

namespace Sys2Proof.Machine

variable {s t u : State} {i : Src} {p q : Port} {o : Option Port} {f : Frame}

/-! ### The end of an event (R95, R131, R143) -/

theorem beginFrame_answering (s : State) (p : Port) (lost : Bool) (body : TxBody) :
    Answering none s (s.beginFrame p lost body) := by
  have hsending (x : Transmitter) : Answering none s (s.setEng p { s.eng p with tx := x }) :=
    setEng_answering_of_eq rfl rfl rfl rfl
  have hsignalled (t : State) (m : DevSet) : Answering none t (t.setSignalled p m) := .of_parts id rfl rfl rfl rfl
  exact (hsending _).trans (hsignalled _ _)

theorem applyRate_answering (s : State) (p : Port) : Answering none s (s.applyRate p) := by
  unfold State.applyRate
  dsimp only
  split
  · split
    · exact setEng_answering ⟨le_rfl, rfl, .inr rfl⟩ le_rfl
    · exact .refl s
  · exact .refl s

theorem takeHead_answering (s : State) (p : Port) : Answering none s (s.takeHead p) := by
  have hremoved (i : Src) : Answering none s (s.removeRef i p) :=
    .of_offNotices (offNotices_of_offDelivery (removeRef_offDelivery s i p)) fun h =>
      h.of_offDelivery (removeRef_offDelivery s i p) fun q j hj => by
        rw [removeRef_queue] at hj
        split at hj
        · subst_vars
          exact List.mem_of_mem_filter hj
        · exact hj
  have hnotice (t : State) (i : Src) (n : Notice) : Answering none t (t.setNotice i (some n)) :=
    .of_offNotices rfl fun h => h.setNotice i n
  unfold State.takeHead
  split
  · exact .refl s
  · split
    · exact .refl s
    · exact ((hremoved _).trans (hnotice _ _ _)).trans (beginFrame_answering _ p _ _)

theorem chooseFrame_answering (s : State) (p : Port) : Answering none s (s.chooseFrame p) := by
  unfold State.chooseFrame
  dsimp only
  split
  · split
    · rename_i r rest hr
      have hsent : Answering none s (s.setEng p { s.eng p with responses := rest, lost := false }) :=
        setEng_answering ⟨le_rfl, rfl, .inl rfl⟩ (by simp [hr])
      exact hsent.trans (beginFrame_answering _ p _ _)
    · split
      · have hsent (l : List Withdrawal) : Answering none s (s.setEng p { s.eng p with withdrawals := l }) :=
          setEng_answering_of_eq rfl rfl rfl rfl
        exact (hsent _).trans (beginFrame_answering _ p _ _)
      · split
        · exact takeHead_answering s p
        · exact .refl s
  · exact .refl s

theorem settle_answering (s : State) : Answering none s s.settle := by
  have hport (t : State) (p : Port) : Answering none t (t.settlePort p) :=
    (applyRate_answering t p).trans (chooseFrame_answering _ p)
  exact ((hport s .A).trans (hport _ .B)).trans (hport _ .C)

/-- A transmitter that has chosen, with no link rate due while it is between frames, is at rest: a head that may be taken
is there to be taken (R75, R94). -/
theorem chooseFrame_quiet (hlive : RefsLive s) (hrate : (s.eng p).tx = .idle → (s.eng p).rateDue = false) :
    PortQuiet (s.chooseFrame p) p := by
  have hsending (t : State) (lost : Bool) (body : TxBody) : PortQuiet (t.beginFrame p lost body) p := by
    intro hidle
    simp [State.beginFrame] at hidle
  unfold State.chooseFrame
  dsimp only
  split
  · rename_i hidle
    split
    · exact hsending _ _ _
    · rename_i hr
      split
      · exact hsending _ _ _
      · rename_i hw
        split
        · rename_i htake
          obtain ⟨-, -, -, hne, -⟩ := (canTakeHead_iff s p).mp htake
          unfold State.takeHead
          split
          · rename_i hq
            exact absurd hq hne
          · rename_i i rest hq
            split
            · rename_i hn
              have := hlive p i (hq ▸ List.mem_cons_self)
              rw [hn] at this
              cases this
            · exact hsending _ _ _
        · rename_i htake
          exact fun _ => ⟨hrate hidle.1, fun _ => ⟨hr, hw, by simpa using htake⟩⟩
  · rename_i hbusy
    exact fun hidle => ⟨hrate hidle, fun hon => absurd ⟨hidle, hon⟩ hbusy⟩

theorem settlePort_quiet (hlive : RefsLive s) : PortQuiet (s.settlePort p) p := by
  refine chooseFrame_quiet ((applyRate_answering s p).live hlive) ?_
  unfold State.applyRate
  dsimp only
  split
  · split
    · simp [PortEngine.rateDue]
    · rename_i hbusy
      exact fun hidle => absurd hidle hbusy
  · rename_i hno
    intro _
    unfold PortEngine.rateDue
    split
    · rename_i r hr
      exact absurd hr (hno r)
    · rfl

/-- The end of an event leaves every transmitter sending or with nothing to send. -/
theorem RefsLive.settled (h : RefsLive s) : Settled s.settle := by
  have hA := h.settlePort .A
  have hB := hA.settlePort .B
  refine ⟨h.settle, fun p => ?_⟩
  unfold State.settle
  cases p
  · exact ((settlePort_quiet h).settlePort (by decide)).settlePort (by decide)
  · exact (settlePort_quiet hA).settlePort (by decide)
  · exact settlePort_quiet hB

/-! ### What an event keeps -/

/-- Before its end an event keeps the references, the bounds of the links and those of the responses. -/
structure BoundsKept (s t : State) : Prop where
  live : RefsLive s → RefsLive t
  responses : ResponsesOk s → ResponsesOk t
  links : LinkBounds s → LinkBounds t

theorem BoundsKept.refl (s : State) : BoundsKept s s := ⟨id, id, id⟩

theorem BoundsKept.trans (h : BoundsKept s t) (k : BoundsKept t u) : BoundsKept s u :=
  ⟨k.live ∘ h.live, k.responses ∘ h.responses, k.links ∘ h.links⟩

/-- With its end an event keeps the bounds, and transmitters that were settled are settled. -/
structure EventKept (s t : State) : Prop where
  settled : Settled s → Settled t
  responses : ResponsesOk s → ResponsesOk t
  links : LinkBounds s → LinkBounds t

theorem EventKept.refl (s : State) : EventKept s s := ⟨id, id, id⟩

theorem LinkBounds.of_links (h : LinkBounds s) (hl : ∀ p, LinkKept (s.eng p) (t.eng p)) : LinkBounds t where
  requests p := (hl p).requests.trans (h.requests p)
  parity p := by rw [(hl p).errors]; exact h.parity p
  framing p := by rw [(hl p).errors]; exact h.framing p
  check p := by rw [(hl p).errors]; exact h.check p
  overrun p := by rw [(hl p).errors]; exact h.overrun p
  assembled p chars held hx := by
    rcases (hl p).rx with hk | hk
    · exact h.assembled p chars held (hk ▸ hx)
    · rw [hk] at hx
      cases hx

theorem storeCount_le (s : State) (p : Port) : s.storeCount p ≤ 1 := by
  unfold State.storeCount
  split
  · split <;> omega
  · exact Nat.zero_le 1

/-- A port may be given a response of its own while its list holds fewer than 4 (R142). -/
theorem Answering.boundsKept (h : Answering o s t) (ho : ∀ p, o = some p → (s.eng p).responses.length < 4) :
    BoundsKept s t where
  live := h.live
  links hs := hs.of_links h.links
  responses hs := by
    obtain ⟨polls, requested, once⟩ := h.polls hs.pollsOk
    refine ⟨polls, fun p => ?_, requested, once⟩
    have hdue := h.due hs.pollsOk p
    have hbound := hs.bound p
    have hpoll := hs.polls p
    have hstore := storeCount_le s p
    unfold State.due at hdue
    split at hdue
    · rename_i hp
      have := ho p hp
      omega
    · omega

theorem Answering.kept (h : Answering none s t) : BoundsKept s t := h.boundsKept nofun

theorem BoundsKept.settle (h : BoundsKept s t) : EventKept s t.settle := by
  have hend := (settle_answering t).kept
  exact ⟨fun hs => (h.live hs.live).settled, hend.responses ∘ h.responses, hend.links ∘ h.links⟩

theorem Answering.settle (h : Answering none s t) : EventKept s t.settle := h.kept.settle

/-! ### Requests (R142, R155) -/

theorem execHead_event {named : Frame → Bool} {run : Frame → State → State}
    (hrun : ∀ f t, Answering (some p) t (run f t)) : EventKept s (s.execHead p named run) := by
  unfold State.execHead
  split
  · rename_i hmay
    obtain ⟨-, -, hroom⟩ := (mayExecute_iff s p).mp hmay
    split
    · exact .refl s
    · rename_i f rest hq
      split
      · have hpopped : Answering none s (s.popped p rest) := setEng_answering ⟨by simp [hq], rfl, .inl rfl⟩ le_rfl
        refine (hpopped.trans (hrun f _)).boundsKept (fun q hq => ?_) |>.settle
        cases hq
        exact hroom
      · exact .refl s
  · exact .refl s

theorem execKind_event {k : ReqKind} {named : Frame → Bool} {run : Frame → State → State}
    (hrun : ∀ f t, Answering (some p) t (run f t)) : EventKept s (s.execKind p k named run) :=
  execHead_event fun f t => by
    split
    · exact respond_answering t p _
    · exact hrun f t

theorem execWrite_event (s : State) (p : Port) (row : Frame → Bool) : EventKept s (s.execWrite p row) :=
  execKind_event fun f t => decideWrite_answering t p f

/-! ### The receivers (R134 to R137) -/

/-- What `LinkBounds` says of one engine. -/
structure ReceiverOk (e : PortEngine) : Prop where
  requests : e.requests.length ≤ Config.requestQueueSize
  errors : e.errors.parity ≤ 255 ∧ e.errors.framing ≤ 255 ∧ e.errors.check ≤ 255 ∧ e.errors.overrun ≤ 255
  assembled : ∀ chars held, e.rx = .receiving chars held → unfinished chars = true

theorem linkBounds_iff (s : State) : LinkBounds s ↔ ∀ p, ReceiverOk (s.eng p) where
  mp h p := ⟨h.requests p, ⟨h.parity p, h.framing p, h.check p, h.overrun p⟩, h.assembled p⟩
  mpr h := ⟨fun p => (h p).requests, fun p => (h p).errors.1, fun p => (h p).errors.2.1, fun p => (h p).errors.2.2.1,
    fun p => (h p).errors.2.2.2, fun p => (h p).assembled⟩

/-- A receiver acts on its request queue, its error counts, LOST and itself, which the transmitters do not look at. -/
theorem setRequests_event {r : List Frame} {c : ErrorCounts} {x : Receiver} {l : Bool} {a : Attention}
    (h : ReceiverOk (s.eng p) → ReceiverOk { s.eng p with requests := r, errors := c, rx := x, lost := l }) :
    EventKept s { s.setEng p { s.eng p with requests := r, errors := c, rx := x, lost := l } with attention := a } := by
  generalize ht : ({ s.setEng p { s.eng p with requests := r, errors := c, rx := x, lost := l } with
    attention := a } : State) = t
  have heng (q : Port) : t.eng q = (s.setEng p { s.eng p with requests := r, errors := c, rx := x, lost := l }).eng q := by
    rw [← ht]
    rfl
  have hview (q : Port) : (t.eng q).tx = (s.eng q).tx ∧ (t.eng q).ratePending = (s.eng q).ratePending ∧
      (t.eng q).state = (s.eng q).state ∧ (t.eng q).responses = (s.eng q).responses ∧
      (t.eng q).withdrawals = (s.eng q).withdrawals := by
    rw [heng, State.eng_setEng]
    split
    · subst_vars
      exact ⟨rfl, rfl, rfl, rfl, rfl⟩
    · exact ⟨rfl, rfl, rfl, rfl, rfl⟩
  refine ⟨fun hs => ⟨?_, fun q => ?_⟩, fun hs => ?_, fun hs => ?_⟩
  · rw [← ht]
    exact hs.live
  · obtain ⟨htx, hrate, hstate, hresp, hwith⟩ := hview q
    have htake : t.canTakeHead q = s.canTakeHead q := by
      have hrest : t.stage = s.stage ∧ t.queue q = s.queue q ∧ t.offerCount q = s.offerCount q := by
        rw [← ht]
        exact ⟨rfl, rfl, rfl⟩
      obtain ⟨hst, hq, ho⟩ := hrest
      rw [Bool.eq_iff_iff, canTakeHead_iff, canTakeHead_iff, hst, hq, ho, hstate, hresp, hwith]
    have hquiet := hs.quiet q
    unfold PortQuiet PortEngine.rateDue at hquiet ⊢
    rwa [htx, hrate, hstate, hresp, hwith, htake]
  · have hrest (q : Port) : t.pollCount q = s.pollCount q ∧ t.storeCount q = s.storeCount q := by
      rw [← ht]
      exact ⟨rfl, rfl⟩
    have hbus : t.bus = s.bus := by rw [← ht]; rfl
    refine ⟨fun q => ?_, fun q => ?_, hbus ▸ hs.requested, hbus ▸ hs.once⟩
    · rw [(hrest q).1]
      exact hs.polls q
    · rw [(hrest q).1, (hrest q).2, (hview q).2.2.2.1]
      exact hs.bound q
  · rw [linkBounds_iff] at hs ⊢
    intro q
    rw [heng, State.eng_setEng]
    split
    · subst_vars
      exact h (hs _)
    · exact hs q

theorem countUp_le {n : Nat} (h : n ≤ 255) : countUp n ≤ 255 := by
  unfold countUp
  split <;> omega

theorem bump_le {c : ErrorCounts} (h : c.parity ≤ 255 ∧ c.framing ≤ 255 ∧ c.check ≤ 255 ∧ c.overrun ≤ 255)
    (k : ErrorKind) : (ErrorCounts.bump c k).parity ≤ 255 ∧ (ErrorCounts.bump c k).framing ≤ 255 ∧
      (ErrorCounts.bump c k).check ≤ 255 ∧ (ErrorCounts.bump c k).overrun ≤ 255 := by
  obtain ⟨hp, hf, hc, ho⟩ := h
  cases k
  · exact ⟨countUp_le hp, hf, hc, ho⟩
  · exact ⟨hp, countUp_le hf, hc, ho⟩
  · exact ⟨hp, hf, countUp_le hc, ho⟩
  · exact ⟨hp, hf, hc, countUp_le ho⟩

theorem linkError_event (s : State) (p : Port) (k : ErrorKind) {rx : Receiver}
    (hx : ∀ chars held, rx = .receiving chars held → unfinished chars = true) : EventKept s (s.linkError p k rx) :=
  setRequests_event fun h => ⟨h.requests, bump_le h.errors k, hx⟩

theorem failFrame_event (s : State) (p : Port) (k : ErrorKind) : EventKept s (s.failFrame p k) :=
  linkError_event s p k nofun

theorem setRx_event {chars : List Byte} {held : Bool} (hx : ReceiverOk (s.eng p) → unfinished chars = true) :
    EventKept s (s.setRx p (.receiving chars held)) :=
  setRequests_event (a := s.attention) fun h => ⟨h.requests, h.errors, fun c _ hc => by
    cases hc
    exact hx h⟩

/-- A frame that is not complete with a further character is unfinished (R134). -/
theorem unfinished_append {chars : List Byte} {b : Byte} (h : unfinished chars = true)
    (hp : assembled (chars ++ [b]) = .partialFrame) : unfinished (chars ++ [b]) = true := by
  rcases chars with _ | ⟨head, _ | ⟨len, rest⟩⟩
  · rfl
  · simp only [assembled, List.nil_append, List.cons_append] at hp
    split at hp
    · cases hp
    · rename_i hlen
      simpa [unfinished] using hlen
  · simp only [unfinished, Bool.and_eq_true, decide_eq_true_eq, List.cons_append, List.length_append,
      List.length_singleton] at h ⊢
    simp only [assembled, List.cons_append, List.length_append, List.length_singleton] at hp
    split at hp
    · cases hp
    · split at hp
      · cases hp
      · rename_i hlen
        omega

theorem takeByte_event {chars : List Byte} (b : Byte) (hx : (s.eng p).rx = .receiving chars false) :
    EventKept s (s.takeByte p chars b) := by
  have hbetween : ∀ c held, Receiver.receiving [] false = .receiving c held → unfinished c = true := fun c _ hc => by
    cases hc
    rfl
  unfold State.takeByte
  split
  · rename_i hpart
    exact setRx_event fun h => unfinished_append (h.assembled chars false hx) hpart
  · exact failFrame_event s p _
  · unfold State.offerFrame
    dsimp only
    split
    · rename_i hroom
      exact setRequests_event (a := s.attention) fun h => ⟨by simpa using hroom, h.errors, hbetween⟩
    · exact linkError_event s p _ hbetween
  · exact failFrame_event s p _

theorem takeChar_event {chars : List Byte} (c : LinkChar) (hx : (s.eng p).rx = .receiving chars false) :
    EventKept s (s.takeChar p chars c) := by
  unfold State.takeChar
  split
  · exact setRx_event fun h => h.assembled chars false hx
  · split
    · exact failFrame_event s p _
    · exact failFrame_event s p _
    · exact takeByte_event _ hx

end Sys2Proof.Machine

/-! Every step keeps the bounds of the port engines and of their responses (O54), and leaves every transmitter settled
(O60): the commands one by one. -/

namespace Sys2Proof.Machine

variable {s t : State} {p : Port}

/-! ### Start-up (R147, R184, R185) -/

theorem receiverOk_reset (st : PortState) (r : LinkRate) :
    ReceiverOk { PortEngine.reset with state := st, rate := r } :=
  ⟨Nat.zero_le _, ⟨Nat.zero_le _, Nat.zero_le _, Nat.zero_le _, Nat.zero_le _⟩, nofun⟩

theorem fullReset_event (s : State) : EventKept s s.fullReset := by
  have heng (p : Port) : s.fullReset.eng p = PortEngine.reset := PerPort.get_all _ p
  refine ⟨fun _ => ⟨fun p i hi => ?_, fun p _ => ?_⟩, fun _ => ⟨fun p => Nat.zero_le _, fun p => ?_, nofun, List.nodup_nil⟩,
    fun _ => (linkBounds_iff _).mpr fun p => heng p ▸ receiverOk_reset _ _⟩
  · rw [queue_reset] at hi
    cases hi
  · rw [heng]
    exact ⟨rfl, fun h => absurd rfl h⟩
  · rw [heng]
    exact Nat.zero_le _

/-- The ports start with empty lists and their receivers in HUNT (R147). -/
theorem bootLoad_kept_bounds (s : State) (fatLow : Bool) :
    BoundsKept s (s.loadTables.startSources.startPorts.latchPresent.sampleFat fatLow) := by
  obtain ⟨hnotices, hdelivery, hbus, -, hstore⟩ := loadTables_parts s
  generalize s.loadTables = t at *
  have heng (p : Port) : (t.startSources.startPorts.latchPresent.sampleFat fatLow).eng p = { PortEngine.reset with
      state := if (t.portCfg p).enabled then .detached else .disabled, rate := (t.portCfg p).rate } :=
    PerPort.get_build _ p
  have hqueue : (t.startSources.startPorts.latchPresent.sampleFat fatLow).bus.pollQueue = s.bus.pollQueue := by
    rw [← hbus]
    rfl
  have hpolls (p : Port) : (t.startSources.startPorts.latchPresent.sampleFat fatLow).pollCount p = s.pollCount p := by
    rw [pollCount_eq, pollCount_eq, ← hbus]
    rfl
  refine ⟨fun h => h.of_eq hnotices hdelivery, fun hs => ⟨fun p => ?_, fun p => ?_, hqueue ▸ hs.requested, hqueue ▸ hs.once⟩,
    fun _ => (linkBounds_iff _).mpr fun p => heng p ▸ receiverOk_reset _ _⟩
  · rw [hpolls]
    exact hs.polls p
  · have hcount : (t.startSources.startPorts.latchPresent.sampleFat fatLow).storeCount p = s.storeCount p :=
      storeCount_congr hstore p
    have hbound := hs.bound p
    have hnone : ((t.startSources.startPorts.latchPresent.sampleFat fatLow).eng p).responses.length = 0 := by
      rw [heng]
      rfl
    rw [hpolls, hcount]
    omega

theorem execBootLoadComplete_event {fatLow : Bool} (ht : execBootLoadComplete fatLow s = .next t) : EventKept s t := by
  cases ht
  split
  · exact ((bootLoad_kept_bounds s fatLow).trans (beginScan_answering _).kept).settle
  · exact .refl s

/-! ### The ends of transactions -/

theorem execBidRoundEnd_event {address : BitVec 6} {report : BitVec 16} {check : BitVec 8}
    (ht : execBidRoundEnd address report check s = .next t) : EventKept s t := by
  cases ht
  split
  · split
    · exact ((endTransaction_answering s _ _ _).trans (bidEffect_answering _ _ _)).settle
    · exact .refl s
  · exact .refl s

theorem execPollEnd_event {reply : Option FieldReply} (ht : execPollEnd reply s = .next t) : EventKept s t := by
  cases ht
  split
  · rename_i g hg
    split
    · rename_i e hw
      exact (pollEnd_answering hg hw _ _ _).settle
    · exact .refl s
  · exact .refl s

theorem execClearEnd_event {reply : Option FieldReply} (ht : execClearEnd reply s = .next t) : EventKept s t := by
  cases ht
  split
  · split
    · refine Answering.settle ?_
      split
      · exact endTransaction_answering s _ _ _
      · split
        · exact (endTransaction_answering s _ _ _).trans (handOutcome_answering _ _ _ _)
        · exact (endTransaction_answering s _ _ _).trans (clearEffect_answering _ _ _)
    · exact .refl s
  · exact .refl s

theorem execScanStepEnd_event {reply : Option FieldReply} (ht : execScanStepEnd reply s = .next t) :
    EventKept s t := by
  cases ht
  split
  · split
    · exact (((endTransaction_answering s _ _ _).trans (handOutcome_answering _ _ _ _)).trans
        (moveCursor_answering _ _)).settle
    · exact .refl s
  · exact .refl s

/-- The gap that ends carries no poll (R42). -/
theorem gapEnd_answering {r : FieldRate} (hg : s.bus.state = .gap r) (fatLow : Bool) :
    Answering none s (s.setBus { s.bus with state := .idle, fatLow := fatLow }) := by
  have hcount (p : Port) : (s.setBus { s.bus with state := .idle, fatLow := fatLow }).pollCount p ≤ s.pollCount p := by
    rw [pollCount_eq, pollCount_eq, hg]
    exact le_rfl
  exact .of_bus rfl (fun hs => hs.of_less hcount hs.requested (List.Sublist.refl _)) fun _ => hcount

/-! ### The lines and the timers -/

theorem execLineSample_event {levels : BitVec 8} (ht : execLineSample levels s = .next t) : EventKept s t := by
  have hsample (u : State) : Answering none u (u.sampleLines levels) := .of_parts id rfl rfl rfl rfl
  have hspend (u : State) (l : List Src) : Answering none u (u.spendFree l) := .of_parts id rfl rfl rfl rfl
  cases ht
  exact ((((tickTimers_answering s).trans (hsample _)).trans (hspend _ _)).trans
    (.foldl lineRose_answering _ _)).settle

theorem execOfferExpiry_event {i : Src} (ht : execOfferExpiry p i s = .next t) : EventKept s t := by
  cases ht
  split
  · exact .refl s
  · split
    · exact (expireOffer_answering s p i _).settle
    · exact .refl s

theorem execServiceExpiry_event {i : Src} (ht : execServiceExpiry i s = .next t) : EventKept s t := by
  cases ht
  split
  · exact .refl s
  · split
    · split
      · exact (expireService_answering s _ i _).settle
      · exact .refl s
    · exact .refl s
    · exact .refl s

/-! ### The links -/

theorem execLinkCharacter_event {x : LinkChar} (ht : execLinkCharacter p x s = .next t) : EventKept s t := by
  cases ht
  split
  · split
    · exact .refl s
    · exact .refl s
    · rename_i hx
      exact takeChar_event x hx
  · exact .refl s

theorem execFrameIdleTimeout_event (ht : execFrameIdleTimeout p s = .next t) : EventKept s t := by
  cases ht
  split
  · split
    · exact failFrame_event s p _
    · exact .refl s
  · exact .refl s

theorem execHuntEnd_event (ht : execHuntEnd p s = .next t) : EventKept s t := by
  cases ht
  split
  · exact setRx_event fun _ => rfl
  · exact .refl s

theorem execLineReturnToMark_event (ht : execLineReturnToMark p s = .next t) : EventKept s t := by
  cases ht
  split
  · split
    · exact failFrame_event s p _
    · exact .refl s
  · exact .refl s

theorem execFrameSent_event (ht : execFrameSent p s = .next t) : EventKept s t := by
  have hidle : Answering none s (s.setEng p { s.eng p with tx := .idle }) := setEng_answering_of_eq rfl rfl rfl rfl
  cases ht
  split
  · exact .refl s
  · exact (frameEnded_answering s p _).settle
  · exact hidle.settle

/-! ### The commands -/

theorem exec_event {c : Instr} (ht : exec c s = .next t) : EventKept s t := by
  cases c with
  | fullReset => cases ht; exact fullReset_event s
  | bootLoadComplete fatLow => exact execBootLoadComplete_event ht
  | lineSample levels => exact execLineSample_event ht
  | offerExpiry p i => exact execOfferExpiry_event ht
  | serviceExpiry i => exact execServiceExpiry_event ht
  | linkCharacter p x => exact execLinkCharacter_event ht
  | frameIdleTimeout p => exact execFrameIdleTimeout_event ht
  | huntEnd p => exact execHuntEnd_event ht
  | lineReturnToMark p => exact execLineReturnToMark_event ht
  | frameSent p => exact execFrameSent_event ht
  | linkBreak p =>
    cases ht
    split
    · exact (breakPort_answering s p).settle
    · exact .refl s
  | fatLow =>
    have hsample : Answering none s (s.sampleFat true) := .of_parts id rfl rfl rfl rfl
    cases ht
    split
    · exact .refl s
    · exact (hsample.trans (arbiter_answering _)).settle
  | gapEnd fatLow =>
    cases ht
    split
    · rename_i hg
      exact ((gapEnd_answering hg fatLow).trans (arbiter_answering _)).settle
    · exact .refl s
  | bidRoundEnd address report check => exact execBidRoundEnd_event ht
  | pollEnd reply => exact execPollEnd_event ht
  | clearEnd reply => exact execClearEnd_event ht
  | scanStepEnd reply => exact execScanStepEnd_event ht
  | passWalk =>
    cases ht
    split
    · exact .refl s
    · exact (passStep_answering s).settle
  | storeComplete content check =>
    cases ht
    split
    · exact .refl s
    · rename_i hst
      exact (completeStore_answering hst content check).settle
  | attach p => cases ht; exact execKind_event fun f t => decideAttach_answering t p f
  | detach p => cases ht; exact execKind_event fun f t => decideDetach_answering t p f
  | hold p => cases ht; exact execKind_event fun f t => decideHold_answering t p f
  | resume p => cases ht; exact execKind_event fun f t => decideResume_answering t p f
  | claim p => cases ht; exact execKind_event fun f t => decideClaim_answering t p f
  | release p => cases ht; exact execKind_event fun f t => decideRelease_answering t p f
  | close p => cases ht; exact execKind_event fun f t => decideClose_answering t p f
  | poll p => cases ht; exact execKind_event fun f t => decidePoll_answering t p f
  | sweep p =>
    cases ht
    exact execKind_event fun f t => (triggerPass_answering t).trans (respond_answering _ p _)
  | resumeField p fatLow => cases ht; exact execKind_event fun f t => decideResumeField_answering t p fatLow f
  | readEntry p => cases ht; exact execKind_event fun f t => respond_answering t p _
  | takeRight p => cases ht; exact execKind_event fun f t => decideTakeRight_answering t p f
  | giveRight p => cases ht; exact execKind_event fun f t => decideGiveRight_answering t p f
  | store p => cases ht; exact execKind_event fun f t => decideStore_answering t p f
  | status p => cases ht; exact execKind_event fun f t => respond_answering t p _
  | ackStatus p => cases ht; exact execKind_event fun f t => decideAck_answering t p f
  | clearAll p =>
    cases ht
    refine execKind_event fun f t => ?_
    split
    · exact acceptClearAll_answering t p f
    · exact respond_answering t p _
  | unknownRequest p => cases ht; exact execHead_event fun f t => respond_answering t p _
  | sourceDisable p => cases ht; exact execWrite_event s p _
  | sourceEnable p => cases ht; exact execWrite_event s p _
  | writeSourceEntry p => cases ht; exact execWrite_event s p _
  | writeClassEntry p => cases ht; exact execWrite_event s p _
  | writeOrder p => cases ht; exact execWrite_event s p _
  | portEnable p => cases ht; exact execWrite_event s p _
  | portDisable p => cases ht; exact execWrite_event s p _
  | backlogLimitRaise p => cases ht; exact execWrite_event s p _
  | backlogLimitLower p => cases ht; exact execWrite_event s p _
  | linkRateWrite p => cases ht; exact execWrite_event s p _
  | writePortEntry p => cases ht; exact execWrite_event s p _
  | writeDeviceEntry p => cases ht; exact execWrite_event s p _

/-- The queue of commands is none of the part's. -/
theorem EventKept.of_taken {rest : List Instr} (h : EventKept { s with pending := rest } t) : EventKept s t where
  settled hs := h.settled ⟨hs.live, hs.quiet⟩
  responses hs := h.responses ⟨hs.polls, hs.bound, hs.requested, hs.once⟩
  links hs := h.links ⟨hs.requests, hs.parity, hs.framing, hs.check, hs.overrun, hs.assembled⟩

theorem step_event (ht : step s = .next t) : EventKept s t := by
  unfold step at ht
  split at ht
  · cases ht
    exact .refl s
  · exact (exec_event ht).of_taken

/-- Settles O54: each part of a command leaves the receivers and the request queues but for what it drops, and gives a
port no response that was not due to it for a poll or a STORE, but for the one to its own request, which is executed
while its list holds fewer than 4 (`Answering`). -/
theorem stepKeepsThePortEngineBounds : Obligations.StepKeepsThePortEngineBounds :=
  ⟨fun _ _ hs ht => (step_event ht).links hs, fun _ _ hs ht => (step_event ht).responses hs⟩

/-- Settles O60: every command that could give a transmitter something to send ends with the transmitters' choice, which
leaves each at rest as long as every reference designates a living notice (`RefsLive.settled`). -/
theorem stepLeavesTransmittersSettled : Obligations.StepLeavesTransmittersSettled :=
  fun _ _ hs ht => (step_event ht).settled hs

end Sys2Proof.Machine

/-! The decoding checks follow the tables of R146, R156 and R157 (O28). -/

namespace Sys2Proof.Machine

variable {s : State} {p : Port}

/-- The content lengths of the writable tables, row by row (R146). -/
theorem tableRows_length (n len : Nat) :
    tableRows.any (fun row => row.1 == n && some len == row.2.1.map (2 + ·)) =
      match contentLength n with
      | none => false
      | some m => len == 2 + m := by
  rcases n with _ | _ | _ | _ | _ | _ | n <;> simp [tableRows, contentLength]

/-- The index ranges of the tables, row by row (R146, R157). -/
theorem tableRows_index (table index : Nat) :
    tableRows.any (fun row => row.1 == table && decide (row.2.2.1 ≤ index) && decide (index ≤ row.2.2.2)) =
      indexOk table index := by
  rcases table with _ | _ | _ | _ | _ | _ | n <;> simp [tableRows, indexOk, indexRange]

/-- Check 2 of R156 asks the LEN of the row. -/
theorem lengthOk_row (f : Frame) {r : RequestRow} (h : r ∈ requestRows) : lengthOk r.kind f = r.lengthRight f := by
  have hwrite : lengthOk .writeEntry f = RequestRow.lengthRight ⟨.writeEntry, 0x31, none, false, false⟩ f := by
    unfold lengthOk RequestRow.lengthRight
    cases f.payload with
    | nil => rfl
    | cons t rest => exact (tableRows_length t.toNat (t :: rest).length).symm
  fin_cases h
  on_goal 11 => exact hwrite
  all_goals rfl

theorem ofNum_isSome (n : Nat) : (Src.ofNum n).isSome = (decide (1 ≤ n) && decide (n ≤ 56)) := by
  unfold Src.ofNum
  split <;> simp_all

/-- A set of two bytes is not empty when one of them is not. -/
theorem ofLe16_ne_zero (lo hi : Byte) : (ofLe16 lo hi != 0) = (lo != 0 || hi != 0) := by
  rw [Bool.eq_iff_iff, Bool.or_eq_true, bne_iff_ne, bne_iff_ne, bne_iff_ne, ← not_and_or, not_iff_not]
  constructor
  · intro h
    have hbytes := le16_ofLe16 lo hi
    rw [h, show le16 0 = [0, 0] from rfl] at hbytes
    simp only [List.cons.injEq, and_true] at hbytes
    exact ⟨hbytes.1.symm, hbytes.2.symm⟩
  · rintro ⟨rfl, rfl⟩
    rfl

/-- Check 5 of R156 asks the ranges of R157. -/
theorem argsOk_row (f : Frame) {r : RequestRow} (h : r ∈ requestRows) : argsOk r.kind f = r.rangeRight f := by
  have hsource := ofNum_isSome (f.byte 0).toNat
  have hindex := tableRows_index (f.byte 0).toNat (f.byte 1).toNat
  have hclear : (f.clearSet != 0) = (f.byte 3 != 0 || f.byte 4 != 0) := ofLe16_ne_zero _ _
  fin_cases h
  on_goal 7 => exact congrArg₂ and hsource hclear
  all_goals simp [RequestRow.rangeRight, argsOk, hsource, hindex]

/-- Checks 3 and 4 of R156 admit what the row says. -/
theorem stages_row {r : RequestRow} (h : r ∈ requestRows) :
    r.kind.head = r.head ∧ r.kind.inScanning = r.scanning ∧ r.kind.atDetached = r.detached := by
  fin_cases h <;> exact ⟨rfl, rfl, rfl⟩

theorem decodeCheck_row (s : State) (p : Port) (f : Frame) {r : RequestRow} (h : r ∈ requestRows) :
    s.decodeCheck p r.kind f = r.refusal s p f := by
  obtain ⟨-, hscan, hdetached⟩ := stages_row h
  have hon : (s.eng p).state.isOn = false ↔ (s.eng p).state = .disabled ∨ (s.eng p).state = .detached := by
    cases (s.eng p).state <;> simp [PortState.isOn]
  unfold State.decodeCheck RequestRow.refusal
  simp only [lengthOk_row f h, argsOk_row f h, hscan, hdetached, Bool.and_eq_true, Bool.not_eq_true', bne_iff_ne, hon]

/-- Settles O28: row by row, the checks and the names of the kinds are what the tables say. -/
theorem decodingChecksFollowTheTables : Obligations.DecodingChecksFollowTheTables := by
  refine ⟨fun s p f r hr => ⟨(stages_row hr).1, decodeCheck_row s p f hr⟩, fun h => ?_⟩
  have hheads : ReqKind.all.map ReqKind.head = requestRows.map RequestRow.head := rfl
  unfold ReqKind.ofHead
  rw [Option.isNone_iff_eq_none, List.find?_eq_none]
  simp only [beq_iff_eq]
  constructor
  · intro hnone r hr hh
    have hmem : h ∈ ReqKind.all.map ReqKind.head := by
      rw [hheads]
      exact List.mem_map.mpr ⟨r, hr, hh⟩
    obtain ⟨k, hk, hkh⟩ := List.mem_map.mp hmem
    exact hnone k hk hkh
  · intro hnone k hk hh
    have hmem : h ∈ requestRows.map RequestRow.head := by
      rw [← hheads]
      exact List.mem_map.mpr ⟨k, hk, hh⟩
    obtain ⟨r, hr, hrh⟩ := List.mem_map.mp hmem
    exact hnone r hr hrh

end Sys2Proof.Machine

/-! A refused request is answered with its status and changes nothing else (O29). -/

namespace Sys2Proof.Machine

variable {s : State} {p : Port}

/-- A request command executes the head frame of its port when it has the kind of the command and is of its row. -/
theorem exec_request {c : Instr} {k : ReqKind} (h : c.request = some (p, k)) (s : State) :
    ∃ run, exec c s = .next (s.execKind p k (fun f => c.fits s f) run) := by
  cases c <;> cases h <;> exact ⟨_, rfl⟩

/-- Outside BOOTING an enabled port with fewer than 4 responses waiting executes its requests (R155). -/
theorem mayExecute_false (h : s.stage = .booting ∨ (s.eng p).state = .disabled ∨ 4 ≤ (s.eng p).responses.length) :
    s.mayExecute p = false := by
  rw [← Bool.not_eq_true, mayExecute_iff]
  rintro ⟨hb, hon, hroom⟩
  rcases h with h | h | h
  · exact hb h
  · exact hon h
  · exact absurd hroom (Nat.not_lt.mpr h)

/-- Settles O29: the refusal is the whole meaning of the request, and its response is all that the event's end finds to
send. -/
theorem refusedRequestsChangeNothing : Obligations.RefusedRequestsChangeNothing := by
  intro s p hs
  refine ⟨fun c k f rest st hc hmay hq hk hfits hcheck => ?_, fun f rest hmay hq hkind => ?_, fun c k hc hidle => ?_⟩
  · obtain ⟨run, hrun⟩ := exec_request hc s
    rw [hrun, execKind_refused hmay hq hk hfits hcheck, settle_answer hs hmay]
  · show Host.Outcome.next (s.execHead p _ _) = _
    rw [execHead_named hmay hq (by rw [hkind]; rfl)]
    exact congrArg _ (settle_answer hs hmay)
  · have hnone : s.mayExecute p = false ∨ (s.eng p).requests = [] := by
      rcases hidle with h | h | h | h
      · exact .inl (mayExecute_false (.inl h))
      · exact .inl (mayExecute_false (.inr (.inl h)))
      · exact .inl (mayExecute_false (.inr (.inr h)))
      · exact .inr h
    rcases hc with hc | rfl
    · obtain ⟨run, hrun⟩ := exec_request hc s
      rw [hrun, execKind_idle hnone]
    · exact congrArg _ (execHead_idle hnone)

end Sys2Proof.Machine

/-! The receiver fails a frame on each event of R135 and counts it (O26). -/

namespace Sys2Proof.Machine

variable {s : State} {p : Port} {chars : List Byte}

/-! ### Characters at a receiver (R130, R134, R135) -/

/-- A character that the part or a master sends is judged good. -/
theorem goodChar_judged (b : Byte) : allSpace (goodChar b) = false ∧ judgeChar (goodChar b) = .good := by
  refine ⟨by simp [allSpace, goodChar], ?_⟩
  unfold judgeChar oddParity goodChar
  cases oddOnes b <;> rfl

theorem takeChar_good (s : State) (p : Port) (chars : List Byte) (b : Byte) :
    s.takeChar p chars (goodChar b) = s.takeByte p chars b := by
  obtain ⟨hspace, hgood⟩ := goodChar_judged b
  unfold State.takeChar
  simp only [hspace, hgood]
  rfl

/-- A port that listens, with its receiver in a frame, takes the character. -/
theorem exec_linkCharacter (hb : s.stage ≠ .booting) (hon : (s.eng p).state ≠ .disabled)
    (hx : (s.eng p).rx = .receiving chars false) (c : LinkChar) :
    exec (.linkCharacter p c) s = .next (s.takeChar p chars c) := by
  show Host.Outcome.next _ = _
  rw [if_pos ((listens_iff s p).mpr ⟨hb, hon⟩), hx]

/-- What an error does to the latched and the signalled set (R138, R170). -/
theorem linkError_eq (s : State) (p : Port) (k : ErrorKind) (rx : Receiver) : s.linkError p k rx =
    ((s.setEng p { s.eng p with rx := rx, lost := true, errors := ErrorCounts.bump (s.eng p).errors k }).setLatched p
      (s.latched p ||| 0x80)).setSignalled p (s.signalled p &&& 0x7F) := rfl

theorem assembled_badLength {len : Byte} (hc : chars.length = 1) (hlen : 16 < len.toNat) :
    assembled (chars ++ [len]) = .badLength := by
  obtain ⟨head, rfl⟩ := List.length_eq_one_iff.mp hc
  exact if_pos hlen

/-- The characters of a frame of at most 16 payload bytes are judged by their CHECK (R134). -/
theorem assembled_frame {f : Frame} (h : f.payload.length ≤ 16) (check : Byte) :
    assembled (f.head :: byteOf f.payload.length :: f.payload ++ [check]) =
      .complete f (crc8 (f.head :: byteOf f.payload.length :: f.payload) == check) := by
  have hlen : (byteOf f.payload.length).toNat = f.payload.length := by
    simp only [byteOf, BitVec.toNat_ofNat]
    omega
  simp only [assembled, List.cons_append]
  rw [if_neg (by omega), if_pos (by simp [hlen]), hlen]
  simp

/-- Settles O26, event by event. -/
theorem receiverJudgesCharacters : Obligations.ReceiverJudgesCharacters := by
  refine ⟨fun s p chars c errors hb hon h => ?_, fun s p c h => ?_, fun s p hb hon hx => ?_,
    fun s p chars hb hon hx => ?_, rfl, fun n hn => if_pos hn⟩
  · have hlisten := (listens_iff s p).mpr ⟨hb, hon⟩
    rcases h with ⟨ch, rfl, hx, hstop, hmark, rfl⟩ | ⟨ch, rfl, hx, hstop, hpar, rfl⟩ | ⟨len, rfl, hx, hone, hlen, rfl⟩ |
      ⟨f, check, rfl, hx, rfl, hlen, hcheck, rfl⟩ | ⟨rfl, hx, hne, rfl⟩ | ⟨rfl, hx, rfl⟩
    · have hspace : allSpace ch = false := by
        rcases hmark with h | h
        · rw [allSpace, beq_false_of_ne h]
          rfl
        · simp [allSpace, h]
      rw [exec_linkCharacter hb hon hx]
      unfold State.takeChar judgeChar
      simp only [hspace, hstop]
      rfl
    · rw [exec_linkCharacter hb hon hx]
      unfold State.takeChar judgeChar allSpace
      simp only [hstop, hpar, Bool.not_true, Bool.and_false]
      rfl
    · rw [exec_linkCharacter hb hon hx, takeChar_good]
      unfold State.takeByte
      rw [assembled_badLength hone hlen]
      rfl
    · rw [exec_linkCharacter hb hon hx, takeChar_good]
      unfold State.takeByte
      rw [assembled_frame hlen, beq_false_of_ne (Ne.symm hcheck)]
      rfl
    · obtain ⟨a, l, rfl⟩ := List.exists_cons_of_ne_nil hne
      show Host.Outcome.next _ = _
      rw [if_pos hlisten, hx]
      rfl
    · show Host.Outcome.next _ = _
      rw [if_pos hlisten, hx]
      rfl
  · show Host.Outcome.next _ = _
    split
    · rename_i hlisten
      obtain ⟨hb, hon⟩ := (listens_iff s p).mp hlisten
      rw [(h.resolve_left hb).resolve_left hon]
    · rfl
  · show Host.Outcome.next _ = _
    rw [if_pos (by rw [(listens_iff s p).mpr ⟨hb, hon⟩, hx]; rfl)]
    rfl
  · exact exec_linkCharacter hb hon hx _

end Sys2Proof.Machine

/-! The characters of a good frame put exactly that frame in the request queue, and a frame sent stands on the line
character by character (O25). -/

namespace Sys2Proof.Machine

variable {s t : State} {p : Port} {chars : List Byte}

/-! ### Characters on a line (R130) -/

/-- The levels of a list, taken together, are odd in marks exactly when they fold to one. -/
theorem count_true_odd (l : List Bool) (a : Bool) :
    l.foldl xor a = xor a (decide (l.count true % 2 = 1)) := by
  induction l generalizing a with
  | nil => simp
  | cons b l ih =>
    rw [List.foldl_cons, ih, List.count_cons]
    rcases Nat.mod_two_eq_zero_or_one (l.count true) with h | h <;> cases b <;> cases a <;>
      simp [Nat.add_mod, h]

theorem charLine_eq (c : LinkChar) : charLine c = [false, c.data.getLsbD 0, c.data.getLsbD 1, c.data.getLsbD 2,
    c.data.getLsbD 3, c.data.getLsbD 4, c.data.getLsbD 5, c.data.getLsbD 6, c.data.getLsbD 7, c.parity, c.stop] := rfl

theorem allSpace_iff (c : LinkChar) : allSpace c = true ↔ charLine c = List.replicate 11 false := by
  have hdata : c.data = 0 ↔ ∀ k, k < 8 → c.data.getLsbD k = false := by
    constructor
    · rintro h k -
      rw [h]
      simp
    · intro h
      refine BitVec.eq_of_getLsbD_eq fun k hk => ?_
      rw [h k hk]
      simp
  unfold allSpace
  rw [charLine_eq, Bool.and_eq_true, Bool.and_eq_true, beq_iff_eq, hdata]
  simp only [List.replicate, List.cons.injEq, Bool.not_eq_true', true_and, and_true]
  constructor
  · rintro ⟨⟨h, hp⟩, hs⟩
    exact ⟨h 0 (by omega), h 1 (by omega), h 2 (by omega), h 3 (by omega), h 4 (by omega), h 5 (by omega),
      h 6 (by omega), h 7 (by omega), hp, hs⟩
  · rintro ⟨h0, h1, h2, h3, h4, h5, h6, h7, hp, hs⟩
    refine ⟨⟨fun k hk => ?_, hp⟩, hs⟩
    interval_cases k <;> assumption

theorem goodChar_odd (b : Byte) : ((charLine (goodChar b)).take 10).count true % 2 = 1 := by
  have hfold : ((charLine (goodChar b)).take 10).foldl xor false = true := by
    show xor (oddOnes b) (!oddOnes b) = true
    cases oddOnes b <;> rfl
  rw [count_true_odd] at hfold
  simpa using hfold

theorem level_at (f : TxFrame) {k j : Nat} {b : Byte} (hb : f.bytes[k]? = some b) (hj : j < 11) :
    (Transmitter.sending f).level (11 * k + j) = (charLine (goodChar b))[j]? := by
  have hline := charLines_at f.bytes k j hj
  rw [hb, Option.bind_some] at hline
  have hin : (charLine (goodChar b))[j]? = some (charLine (goodChar b))[j] :=
    List.getElem?_eq_getElem (by rw [length_charLine]; exact hj)
  show some (f.line.getD (11 * k + j) true) = _
  rw [List.getD_eq_getElem?_getD, show f.line[11 * k + j]? = _ from hline, hin]
  rfl

theorem level_after (f : TxFrame) {n : Nat} (h : 11 * f.bytes.length ≤ n) :
    (Transmitter.sending f).level n = some true := by
  show some (f.line.getD n true) = _
  rw [List.getD_eq_default _ _ (by rw [length_line]; exact h)]

/-! ### Characters one after the other (R134) -/

theorem runs_cons {c : Instr} {l : List Instr} (h : exec c s = .next t) : runs (c :: l) s = runs l t := by
  rw [runs, h]

theorem runs_append {l m : List Instr} (h : runs l s = some t) : runs (l ++ m) s = runs m t := by
  induction l generalizing s with
  | nil =>
    cases h
    rfl
  | cons c l ih =>
    rw [List.cons_append, runs]
    rw [runs] at h
    split
    · rename_i u hu
      rw [hu] at h
      exact ih h
    · rename_i hu
      rw [hu] at h
      cases h
    · rename_i hu
      rw [hu] at h
      cases h

theorem exec_goodChar (hb : s.stage ≠ .booting) (hon : (s.eng p).state ≠ .disabled)
    (hx : (s.eng p).rx = .receiving chars false) (b : Byte) :
    exec (.linkCharacter p (goodChar b)) s = .next (s.takeByte p chars b) := by
  rw [exec_linkCharacter hb hon hx, takeChar_good]

/-- Good characters that complete nothing join the frame one by one. -/
theorem runs_partial (l : List Byte) (hb : s.stage ≠ .booting) (hon : (s.eng p).state ≠ .disabled)
    (hx : (s.eng p).rx = .receiving chars false)
    (hpart : ∀ k, k < l.length → assembled (chars ++ l.take (k + 1)) = .partialFrame) :
    runs (l.map (fun b => .linkCharacter p (goodChar b))) s = some (s.setRx p (.receiving (chars ++ l) false)) := by
  induction l generalizing s chars with
  | nil =>
    rw [List.append_nil, ← hx, State.setRx, State.setEng_eng]
    rfl
  | cons b l ih =>
    have hfirst : s.takeByte p chars b = s.setRx p (.receiving (chars ++ [b]) false) := by
      have hone : assembled (chars ++ [b]) = .partialFrame := hpart 0 (Nat.zero_lt_succ _)
      unfold State.takeByte
      rw [hone]
    rw [List.map_cons, runs_cons (exec_goodChar hb hon hx b), hfirst]
    have hrest := ih (s := s.setRx p (.receiving (chars ++ [b]) false)) (chars := chars ++ [b]) hb
      (by simpa [State.setRx] using hon) (by simp [State.setRx]) fun k hk => by
        have := hpart (k + 1) (Nat.succ_lt_succ hk)
        rwa [List.take_succ_cons, List.append_cons] at this
    rw [hrest]
    simp [State.setRx]

/-- No part of a frame before its CHECK is a frame. -/
theorem assembled_part {f : Frame} (h : f.payload.length ≤ 16) {k : Nat} (hk : k < f.payload.length + 2) :
    assembled ((f.head :: byteOf f.payload.length :: f.payload).take (k + 1)) = .partialFrame := by
  have hlen : (byteOf f.payload.length).toNat = f.payload.length := by
    simp only [byteOf, BitVec.toNat_ofNat]
    omega
  cases k with
  | zero => rfl
  | succ k =>
    rw [List.take_succ_cons, List.take_succ_cons]
    simp only [assembled]
    rw [if_neg (by omega), if_neg (by rw [List.length_take]; omega)]

/-- A frame received whole is offered to the request queue (R134). -/
theorem runs_frame {f : Frame} (hb : s.stage ≠ .booting) (hon : (s.eng p).state ≠ .disabled)
    (hx : (s.eng p).rx = .receiving [] false) (h : f.payload.length ≤ 16) :
    runs ((Frame.bytes f).map (fun b => .linkCharacter p (goodChar b))) s = some
      ((s.setRx p (.receiving (f.head :: byteOf f.payload.length :: f.payload) false)).offerFrame p f) := by
  have hbody := runs_partial (f.head :: byteOf f.payload.length :: f.payload) hb hon hx fun k hk => by
    rw [List.nil_append]
    exact assembled_part h hk
  rw [Frame.bytes, List.map_append]
  refine (runs_append hbody).trans ?_
  have htaken := exec_goodChar (s := s.setRx p (.receiving (f.head :: byteOf f.payload.length :: f.payload) false)) (p := p)
    hb (by simpa [State.setRx] using hon) (by simp [State.setRx]; rfl)
    (crc8 (f.head :: byteOf f.payload.length :: f.payload))
  refine (runs_cons htaken).trans ?_
  show some (State.takeByte _ _ _ _) = _
  rw [State.takeByte, assembled_frame h]
  simp

/-- Settles O25: of a frame's characters only the last completes it, and its CHECK is right. -/
theorem goodFramesJoinTheRequestQueue : Obligations.GoodFramesJoinTheRequestQueue := by
  refine ⟨fun c => ⟨charLine_eq c, allSpace_iff c⟩, fun b => ⟨rfl, rfl, goodChar_odd b⟩,
    fun f k j b hb hj => level_at f hb hj, fun f n h => level_after f h, fun _ => rfl, rfl,
    fun s p f hb hon hx h => ⟨fun hroom => ?_, fun hfull => ?_⟩⟩
  · rw [runs_frame hb hon hx h, State.offerFrame, if_pos (by simpa [State.setRx, Config.requestQueueSize] using hroom)]
    simp [State.setRx, hx]
  · rw [runs_frame hb hon hx h, State.offerFrame, if_neg (by simpa [State.setRx, Config.requestQueueSize] using hfull), linkError_eq]
    simp [State.setRx, hx, ErrorCounts.bump, countUp]

end Sys2Proof.Machine

/-! SUPPORT. What the end of a frame leaves for the choice of the next (R97, R131, R143, R170). -/

namespace Sys2Proof.Machine

variable {s t u : State} {p q : Port} {i : Src} {n : Notice} {f : TxFrame}

/-! ### The end of a frame -/

/-- The engine of a port whose frame has been sent: a RESPONSE counts for a link rate that waits (R131). -/
def PortEngine.afterFrame (e : PortEngine) (body : TxBody) : PortEngine :=
  { e with
    tx := .idle
    ratePending := match body with
      | .response _ => rateSent e.ratePending
      | _ => e.ratePending }

/-- Between s and u a frame of p has ended, which leaves its engine as e. -/
structure FrameOver (s u : State) (p : Port) (e : PortEngine) : Prop where
  rest : u.offLinks = s.offLinks
  delivery : u.delivery = s.delivery
  stranded : u.stranded = s.stranded
  offers : ∀ i, (u.notice i).map Notice.offers = (s.notice i).map Notice.offers
  own : u.eng p = e
  others : ∀ q, q ≠ p → u.eng q = s.eng q

theorem startOfferTimer_notice (s : State) (p : Port) (info : NoticeInfo) (i : Src) :
    ((s.startOfferTimer p info).notice i).map Notice.offers = (s.notice i).map Notice.offers ∧
      (info.src ≠ i → (s.startOfferTimer p info).notice i = s.notice i) := by
  unfold State.startOfferTimer
  rw [modNotice_notice]
  split
  · rename_i h
    subst h
    refine ⟨?_, fun hne => absurd rfl hne⟩
    rw [Option.map_map]
    congr 1
    funext n
    dsimp only [Function.comp]
    split <;> rfl
  · exact ⟨rfl, fun _ => rfl⟩

theorem frameEnded_over (s : State) (p : Port) (f : TxFrame) :
    FrameOver s (s.frameEnded p f) p ((s.eng p).afterFrame f.body) := by
  have hend (t : State) (e : PortEngine) (hrest : t.offLinks = s.offLinks) (hd : t.delivery = s.delivery)
      (hst : t.stranded = s.stranded) (ho : ∀ i, (t.notice i).map Notice.offers = (s.notice i).map Notice.offers)
      (heng : ∀ q, t.eng q = if p = q then { s.eng p with ratePending := e.ratePending } else s.eng q)
      (he : e = (s.eng p).afterFrame f.body) :
      FrameOver s ((t.autoClear p).setEng p { t.eng p with tx := .idle }) p ((s.eng p).afterFrame f.body) := by
    refine ⟨hrest, hd, hst, ho, ?_, fun q hq => ?_⟩
    · rw [State.eng_setEng, if_pos rfl, heng, if_pos rfl, ← he]
      subst he
      rfl
    · rw [State.eng_setEng, if_neg (Ne.symm hq)]
      exact (heng q).trans (if_neg (Ne.symm hq))
  have hkept (q : Port) : s.eng q = if p = q then { s.eng p with ratePending := (s.eng p).ratePending } else s.eng q := by
    split
    · subst_vars
      rfl
    · rfl
  unfold State.frameEnded
  dsimp only
  split
  · rename_i info hf
    obtain ⟨hrest, hd, -, hst⟩ := modNotice_rest s info.src fun n =>
      if n.mark = info.mark ∧ n.offers.has p ∧ (s.portCfg p).offerLimit ≠ 0 then
        { n with offerTimers := n.offerTimers.set p (some (s.portCfg p).offerLimit.toNat) } else n
    refine hend _ _ (offLinks_of_offNotices hrest) hd hst (fun i => (startOfferTimer_notice s p info i).1) (fun q => ?_) rfl
    rw [hf]
    exact (eng_of_offNotices hrest q).trans (hkept q)
  · rename_i hf
    refine hend _ _ rfl rfl rfl (fun _ => rfl) (fun q => ?_) rfl
    rw [hf]
    exact State.eng_setEng _ _ _ _
  · rename_i hf
    refine hend _ _ rfl rfl rfl (fun _ => rfl) (fun q => ?_) rfl
    rw [hf]
    exact hkept q

theorem frameEnded_signalled (s : State) (p : Port) (f : TxFrame) : (s.frameEnded p f).signalled p = 0 :=
  PerPort.get_set _ p p _ |>.trans (if_pos rfl)

theorem FrameOver.isSome {e : PortEngine} (h : FrameOver s u p e) (i : Src) : (u.notice i).isSome = (s.notice i).isSome := by
  have := congrArg Option.isSome (h.offers i)
  simpa using this

theorem FrameOver.queue {e : PortEngine} (h : FrameOver s u p e) (q : Port) : u.queue q = s.queue q := by
  simp only [State.queue, h.delivery]

theorem FrameOver.offerCount {e : PortEngine} (h : FrameOver s u p e) (q : Port) : u.offerCount q = s.offerCount q := by
  refine congrArg List.length (List.filter_congr fun i _ => ?_)
  have := h.offers i
  cases hs : s.notice i <;> cases hu : u.notice i <;> simp_all

theorem FrameOver.refsLive {e : PortEngine} (h : FrameOver s u p e) (hs : RefsLive s) : RefsLive u :=
  hs.of_subset (fun q i hi => h.queue q ▸ hi) fun i hi => by rw [h.isSome]; exact hi

/-! ### The choice at one port -/

/-- Where all ports but p are at rest, the end of an event is that at p. -/
theorem settle_of_others (h : ∀ q, q ≠ p → PortQuiet u q) : u.settle = u.settlePort p := by
  unfold State.settle
  cases p
  · rw [settlePort_of_quiet ((h .B (by decide)).settlePort (by decide)),
      settlePort_of_quiet ((h .C (by decide)).settlePort (by decide))]
  · rw [settlePort_of_quiet (h .A (by decide)), settlePort_of_quiet ((h .C (by decide)).settlePort (by decide))]
  · rw [settlePort_of_quiet (h .A (by decide)), settlePort_of_quiet (h .B (by decide))]

theorem FrameOver.settle {e : PortEngine} (h : FrameOver s u p e) (hs : Settled s) : u.settle = u.settlePort p :=
  settle_of_others fun q hq => (hs.quiet q).after (offLinks_fields h.rest).2.1 (h.others q hq)
    (fun hempty => (h.queue q).trans hempty) (h.offerCount q).ge

end Sys2Proof.Machine

/-! After a frame the transmitter chooses the next by R143 (O23). -/

namespace Sys2Proof.Machine

variable {s t u v : State} {p q : Port} {i : Src} {n : Notice} {f : TxFrame} {e : PortEngine}

/-! ### The bytes of a frame (R132, R146) -/

theorem flag_iff (a b : DevSet) : (a &&& b != 0) = true ↔ a &&& b ≠ 0 := bne_iff_ne

/-- The bytes of a frame from its class and its payload. -/
theorem bytes_eq {cls : Nat} {payload front : List Byte} (hc : f.body.cls = cls) (hp : f.body.payload = payload)
    (hfront : front = [byteOf (64 * cls + (if f.e then 32 else 0) + (if f.w then 16 else 0) + (if f.lost then 8 else 0)),
      byteOf payload.length] ++ payload) : f.bytes = front ++ [crc8 front] := by
  have hhead : f.head = byteOf (64 * cls + (if f.e then 32 else 0) + (if f.w then 16 else 0) +
      (if f.lost then 8 else 0)) := by
    unfold TxFrame.head boolNat
    rw [hc]
    cases f.e <;> cases f.w <;> cases f.lost <;> rfl
  rw [hfront, ← hhead, ← hp]
  rfl

/-- The layouts of the three classes (R146). -/
theorem bytes_of_layout {cls : Nat} {payload front : List Byte}
    (h : (∃ r, f.body = .response r ∧ cls = 1 ∧ payload = [r.kind, r.status.code] ++ r.data) ∨
      (∃ n, f.body = .notice n ∧ cls = 2 ∧ payload = [byteOf n.src.num] ++ le16 n.mark ++ [byteOf n.cls.val] ++
        le16 n.conds ++ [n.tag, byteOf ((if n.shared then 1 else 0) + (if n.takeover then 2 else 0))]) ∨
      (∃ w, f.body = .withdrawn w ∧ cls = 3 ∧ payload = [byteOf w.src.num] ++ le16 w.mark ++
        [match w.reason with | .taken => (0 : Byte) | .expired => 1 | .disabled => 2 | .cleared => 3]))
    (hfront : front = [byteOf (64 * cls + (if f.e then 32 else 0) + (if f.w then 16 else 0) +
      (if f.lost then 8 else 0)), byteOf payload.length] ++ payload) : f.bytes = front ++ [crc8 front] := by
  rcases h with ⟨r, hf, rfl, hp⟩ | ⟨n, hf, rfl, hp⟩ | ⟨w, hf, rfl, hp⟩
  · exact bytes_eq (by rw [hf]; rfl) (by rw [hf, hp]; rfl) hfront
  · have hshape : n.payload = payload := by
      rw [hp, NoticeInfo.payload]
      cases n.shared <;> cases n.takeover <;> rfl
    exact bytes_eq (by rw [hf]; rfl) (by rw [hf]; exact hshape) hfront
  · have hshape : w.payload = payload := by
      rw [hp, Withdrawal.payload]
      cases w.reason <;> rfl
    exact bytes_eq (by rw [hf]; rfl) (by rw [hf]; exact hshape) hfront

/-! ### The frame chosen (R143, R144, R170) -/

/-- A frame has begun at p with the flags of the moment and the signalled set that they give. -/
structure Begins (t : State) (p : Port) (lost : Bool) (body : TxBody) : Prop where
  tx : (t.eng p).tx = .sending ⟨t.eFlag p, t.wFlag p, lost, body⟩
  signalled : t.signalled p = t.signalSet p

theorem beginFrame_begins (v : State) (p : Port) (lost : Bool) (body : TxBody) :
    Begins (v.beginFrame p lost body) p lost body where
  tx := by
    simp only [State.beginFrame, State.eng_setSignalled, State.eng_setEng, if_true]
    rfl
  signalled := by
    simp only [State.beginFrame, State.signalled_setSignalled, if_true]
    rfl

theorem chooseFrame_response {r : Response} {rest : List Response} (hidle : (v.eng p).tx = .idle)
    (hon : (v.eng p).state ≠ .disabled) (hr : (v.eng p).responses = r :: rest) : v.chooseFrame p =
      (v.setEng p { v.eng p with responses := rest, lost := false }).beginFrame p (v.eng p).lost (.response r) := by
  unfold State.chooseFrame
  simp only [hidle, hon, hr, ne_eq, not_false_eq_true, and_self, if_true]

theorem chooseFrame_withdrawal {w : Withdrawal} {rest : List Withdrawal} (hidle : (v.eng p).tx = .idle)
    (hon : (v.eng p).state ≠ .disabled) (hr : (v.eng p).responses = []) (hw : (v.eng p).withdrawals = w :: rest) :
    v.chooseFrame p = (v.setEng p { v.eng p with withdrawals := rest }).beginFrame p false (.withdrawn w) := by
  unfold State.chooseFrame
  simp only [hidle, hon, hr, hw, ne_eq, not_false_eq_true, and_self, if_true]

/-- The head of the queue is taken (R96). -/
theorem chooseFrame_notice {rest : List Src} (hidle : (v.eng p).tx = .idle) (htake : v.canTakeHead p = true)
    (hq : v.queue p = i :: rest) (hnew : i ∉ rest) (hn : v.notice i = some n) :
    Begins (v.chooseFrame p) p false (.notice (noticeInfo i n (v.cfg i).tag)) ∧ (v.chooseFrame p).queue p = rest ∧
      (v.chooseFrame p).notice i = some (n.offerTo p) ∧ ((v.chooseFrame p).eng p).lost = (v.eng p).lost := by
  have htaken : v.headTaken p = some i := by
    rw [State.headTaken, if_pos ⟨hidle, htake⟩, hq]
    simp [hn]
  obtain ⟨-, -, -, -, heng, -, hconf⟩ := offDelivery_fields (removeRef_offDelivery v i p)
  have hcfg : (v.removeRef i p).cfg i = v.cfg i := by simp only [State.cfg, hconf]
  have hrest : (v.queue p).filter (fun j => j != i) = rest := by
    rw [hq, List.filter_cons_of_neg (by simp)]
    exact List.filter_eq_self.mpr fun j hj => bne_iff_ne.mpr fun h => hnew (h ▸ hj)
  rw [chooseFrame_taken htaken hn, hcfg]
  refine ⟨beginFrame_begins _ p _ _, ?_, ?_, ?_⟩
  · show (v.removeRef i p).queue p = rest
    rw [removeRef_queue, if_pos rfl, hrest]
  · exact (State.notice_setNotice _ i _ i).trans (if_pos rfl)
  · have hkept : (v.removeRef i p).eng p = v.eng p := by simp only [State.eng, heng]
    simp [State.beginFrame, hkept]

theorem chooseFrame_nothing (hr : (v.eng p).responses = []) (hw : (v.eng p).withdrawals = [])
    (htake : v.canTakeHead p = false) : v.chooseFrame p = v := by
  unfold State.chooseFrame
  simp only [hr, hw, htake, Bool.false_eq_true, if_false, ite_self]

/-- A transmitter that has chosen has begun a frame or stays as it was. -/
theorem chooseFrame_begins (v : State) (p : Port) :
    (∃ lost body, Begins (v.chooseFrame p) p lost body) ∨ v.chooseFrame p = v := by
  unfold State.chooseFrame
  dsimp only
  split
  · split
    · exact .inl ⟨_, _, beginFrame_begins _ p _ _⟩
    · split
      · exact .inl ⟨_, _, beginFrame_begins _ p _ _⟩
      · split
        · unfold State.takeHead
          split
          · exact .inr rfl
          · split
            · exact .inr rfl
            · exact .inl ⟨_, _, beginFrame_begins _ p _ _⟩
        · exact .inr rfl
  · exact .inr rfl

/-! ### The end of a frame and the choice -/

theorem applyRate_over (h : FrameOver s u p e) : ∃ r o x, FrameOver s (u.applyRate p) p { e with
    rate := r, ratePending := o, rx := x } := by
  obtain ⟨-, -, hn, hd, -⟩ := offEngines_fields (applyRate_offEngines u p)
  obtain ⟨⟨r, o, x, heng⟩, -⟩ := applyRate_keeps u p p
  refine ⟨r, o, x, (offLinks_of_offEngines (applyRate_offEngines u p)).trans h.rest, hd.trans h.delivery, ?_, fun i => ?_, ?_,
    fun q hq => ((applyRate_keeps u p q).2.2 (Ne.symm hq)).trans (h.others q hq)⟩
  · rw [← h.stranded]
    simp only [State.stranded, hn]
  · rw [← h.offers i]
    simp only [State.notice, hn]
  · rw [heng, h.own]

/-- A frame that is not of the notice of i leaves it. -/
theorem frameEnded_notice_other (h : ∀ info, f.body = .notice info → info.src ≠ i) (s : State) (p : Port) :
    (s.frameEnded p f).notice i = s.notice i := by
  unfold State.frameEnded
  dsimp only
  split
  · rename_i info hf
    exact (startOfferTimer_notice s p info i).2 (h info hf)
  · rfl
  · rfl

/-- What FRAME_SENT keeps whatever it chooses. -/
theorem FrameOver.settle_keeps (h : FrameOver s u p e) (hs : Settled s) : u.settle.sources = s.sources ∧
    u.settle.bus = s.bus ∧ u.settle.config = s.config ∧ u.settle.stage = s.stage ∧ u.settle.stranded = s.stranded ∧
    ∀ q, q ≠ p → u.settle.eng q = s.eng q ∧ u.settle.queue q = s.queue q := by
  obtain ⟨-, hst, hsrc, hbus, hconf, -⟩ := offLinks_fields ((settle_offLinks u).trans h.rest)
  refine ⟨hsrc, hbus, hconf, hst, (settle_stranded u).trans h.stranded, fun q hq => ?_⟩
  rw [h.settle hs, settlePort_eng_ne u (Ne.symm hq), settlePort_queue]
  refine ⟨h.others q hq, ?_⟩
  rw [h.queue]
  simp [Ne.symm hq]

/-- Settles O23. With the frame over (`FrameOver`), only p has a choice to make; each branch of `chooseFrame` is one row
of R143. -/
theorem transmitterChoosesTheNextFrame : Obligations.TransmitterChoosesTheNextFrame := by
  refine ⟨fun s p => ⟨flag_iff _ _, flag_iff _ _⟩, fun f cls payload front h hfront => ?_, rfl, fun s p f hs htx hon => ?_⟩
  · exact bytes_of_layout h hfront
  have hover := frameEnded_over s p f
  obtain ⟨hsrc, hbus, hconf, hst, hstranded, hothers⟩ := hover.settle_keeps hs
  obtain ⟨hstate, hreq⟩ := settle_eng_keeps (s.frameEnded p f) p
  have herrors := ((settle_answering (s.frameEnded p f)).links p).errors
  rw [hover.own] at hstate hreq herrors
  refine ⟨(s.frameEnded p f).settle, ?_, hsrc, hbus, hconf, hst, hstranded, hothers, hstate, hreq, herrors, ?_⟩
  · show execFrameSent p s = _
    unfold execFrameSent
    rw [htx]
  have hcfg : (s.frameEnded p f).settle.portCfg p = s.portCfg p := by simp only [State.portCfg, hconf]
  obtain ⟨r, o, x, hv⟩ := applyRate_over hover
  have hsig : ((s.frameEnded p f).applyRate p).signalled p = 0 := by
    rw [← frameEnded_signalled s p f]
    simp only [State.signalled, (offEngines_fields (applyRate_offEngines (s.frameEnded p f) p)).2.2.2.2.2.1]
  have hnotice (i : Src) : ((s.frameEnded p f).applyRate p).notice i = (s.frameEnded p f).notice i := by
    simp only [State.notice, (offEngines_fields (applyRate_offEngines (s.frameEnded p f) p)).2.2.1]
  rw [hover.settle hs] at hcfg ⊢
  unfold State.settlePort at hcfg ⊢
  generalize (s.frameEnded p f).applyRate p = v at *
  have heng := hv.own
  have hidle : (v.eng p).tx = .idle := by rw [heng]; rfl
  have hvon : (v.eng p).state ≠ .disabled := by rw [heng]; exact hon
  refine ⟨fun hbusy => ?_, fun r rest hr => ?_, fun w rest hr hw => ?_, fun i rest n w hr hw hrun hatt hlt hq hnew hn hother => ?_,
    fun hr hw hno => ?_⟩
  · rcases chooseFrame_begins v p with ⟨lost, body, hbegins⟩ | hsame
    · rw [hbegins.signalled, signalSet_eq, hcfg]
    · rw [hsame] at hbusy
      exact absurd hidle hbusy
  · rw [chooseFrame_response hidle hvon (by rw [heng]; exact hr)]
    refine ⟨?_, ?_, ?_, ?_, hv.queue p⟩
    · rw [show (s.eng p).lost = (v.eng p).lost by rw [heng]; rfl]
      exact (beginFrame_begins _ p _ _).tx
    · simp [State.beginFrame]
    · simp [State.beginFrame]
    · simp [State.beginFrame, heng, PortEngine.afterFrame]
  · rw [chooseFrame_withdrawal hidle hvon (by rw [heng]; exact hr) (by rw [heng]; exact hw)]
    refine ⟨(beginFrame_begins _ p _ _).tx, ?_, ?_, hv.queue p⟩
    · simp [State.beginFrame]
    · simp [State.beginFrame, heng, PortEngine.afterFrame]
  · have htake : v.canTakeHead p = true := by
      rw [canTakeHead_iff, hv.queue, hv.offerCount, heng, (offLinks_fields hv.rest).2.1]
      exact ⟨hrun, hr, hw, by rw [hq]; nofun, w, hatt, hlt⟩
    have hni : v.notice i = some n := by rw [hnotice, frameEnded_notice_other hother, hn]
    have htag : v.cfg i = s.cfg i := by simp only [State.cfg, (offLinks_fields hv.rest).2.2.2.2.1]
    obtain ⟨hbegins, hqueue, hrecord, hlost⟩ := chooseFrame_notice hidle htake ((hv.queue p).trans hq) hnew hni
    exact ⟨by rw [hbegins.tx, htag]; rfl, hqueue, hrecord, by rw [hlost, heng]; rfl⟩
  · have htake : v.canTakeHead p = false := by
      rw [← Bool.not_eq_true, canTakeHead_iff, hv.queue, hv.offerCount, heng, (offLinks_fields hv.rest).2.1]
      rintro ⟨hrun, -, -, hne, w, hatt, hlt⟩
      rcases hno with h | h | h
      · exact h hrun
      · exact absurd hlt (Nat.not_lt.mpr (h w hatt))
      · exact hne h
    rw [chooseFrame_nothing (by rw [heng]; exact hr) (by rw [heng]; exact hw) htake]
    exact ⟨hidle, hv.queue p, by rw [heng]; rfl, hsig⟩

end Sys2Proof.Machine

/-! SUPPORT. The transmitters' choices at two ports do not touch, and what the end of an event does to a link rate that
is due (R131, R143). -/

namespace Sys2Proof.Machine

variable {s t u v : State} {p q : Port} {i : Src} {e : PortEngine} {r : LinkRate} {x : PendingRate}

/-! ### Engines of two ports -/

theorem setEng_comm (h : p ≠ q) (s : State) (d e : PortEngine) :
    (s.setEng q e).setEng p d = (s.setEng p d).setEng q e := by
  cases p <;> cases q <;> first | rfl | exact absurd rfl h

theorem beginFrame_setEng (h : p ≠ q) (u : State) (e : PortEngine) (lost : Bool) (body : TxBody) :
    (u.setEng q e).beginFrame p lost body = (u.beginFrame p lost body).setEng q e := by
  unfold State.beginFrame
  rw [State.eng_setEng, if_neg (Ne.symm h)]
  dsimp only
  rw [setEng_comm h]
  rfl

theorem removeRef_setEng (u : State) (e : PortEngine) (i : Src) (p : Port) :
    (u.setEng q e).removeRef i p = (u.removeRef i p).setEng q e := by
  have hcut (l : List Src) : (u.setEng q e).setQueue p l = (u.setQueue p l).setEng q e := rfl
  unfold State.removeRef
  rw [State.queue_setEng]
  by_cases hi : (u.queue p).contains i = true
  · rw [if_pos hi, if_pos hi]
    dsimp only
    rw [hcut, triggerPass_setEng]
    exact (apply_ite (fun v : State => v.setEng q e) _ _ _).symm
  · rw [if_neg hi, if_neg hi]

theorem applyRate_setEng (h : p ≠ q) (u : State) (e : PortEngine) :
    (u.setEng q e).applyRate p = (u.applyRate p).setEng q e := by
  unfold State.applyRate
  rw [State.eng_setEng, if_neg (Ne.symm h)]
  dsimp only
  split
  · split
    · exact setEng_comm h _ _ _
    · rfl
  · rfl

theorem takeHead_setEng (h : p ≠ q) (u : State) (e : PortEngine) :
    (u.setEng q e).takeHead p = (u.takeHead p).setEng q e := by
  have hnotice (v : State) (i : Src) (m : Option Notice) :
      (v.setEng q e).setNotice i m = (v.setNotice i m).setEng q e := rfl
  unfold State.takeHead
  rw [State.queue_setEng]
  split
  · rfl
  · rw [State.notice_setEng]
    split
    · rfl
    · dsimp only
      rw [removeRef_setEng, hnotice]
      exact beginFrame_setEng h _ _ _ _

theorem chooseFrame_setEng (h : p ≠ q) (u : State) (e : PortEngine) :
    (u.setEng q e).chooseFrame p = (u.chooseFrame p).setEng q e := by
  have hown : (u.setEng q e).eng p = u.eng p := by rw [State.eng_setEng, if_neg (Ne.symm h)]
  have htake : (u.setEng q e).canTakeHead p = u.canTakeHead p := by
    rw [Bool.eq_iff_iff, canTakeHead_iff, canTakeHead_iff, hown]
    rfl
  unfold State.chooseFrame
  rw [hown, htake]
  dsimp only
  split
  · split
    · rw [setEng_comm h, beginFrame_setEng h]
    · split
      · rw [setEng_comm h, beginFrame_setEng h]
      · split
        · exact takeHead_setEng h u e
        · rfl
  · rfl

/-- What a port does at the end of an event leaves room for any change of another port's engine. -/
theorem settlePort_setEng (h : p ≠ q) (u : State) (e : PortEngine) :
    (u.setEng q e).settlePort p = (u.settlePort p).setEng q e := by
  unfold State.settlePort
  rw [applyRate_setEng h, chooseFrame_setEng h]

/-! ### A link rate that is due -/

/-- The engine in which a due link rate is in force (R131). -/
def PortEngine.rated (e : PortEngine) (r : LinkRate) : PortEngine :=
  { e with rate := r, ratePending := none, rx := .hunt }

theorem settlePort_due (hr : (u.eng q).ratePending = some ⟨r, 0⟩) (hidle : (u.eng q).tx = .idle) :
    u.settlePort q = (u.setEng q ((u.eng q).rated r)).settlePort q := by
  have hdone : (u.setEng q ((u.eng q).rated r)).applyRate q = u.setEng q ((u.eng q).rated r) := by
    unfold State.applyRate
    rw [State.eng_setEng, if_pos rfl]
    rfl
  unfold State.settlePort
  rw [applyRate_due hr hidle]
  exact congrArg (fun w : State => w.chooseFrame q) hdone.symm

/-- A due link rate may be put in force before the transmitters choose. -/
theorem settle_due (hr : (u.eng q).ratePending = some ⟨r, 0⟩) (hidle : (u.eng q).tx = .idle) :
    u.settle = (u.setEng q ((u.eng q).rated r)).settle := by
  have hafter {p : Port} (h : p ≠ q) (v : State) (hv : v.eng q = u.eng q) :
      (v.setEng q ((u.eng q).rated r)).settlePort p = (v.settlePort p).setEng q ((u.eng q).rated r) ∧
        (v.settlePort p).eng q = u.eng q :=
    ⟨settlePort_setEng h v _, (settlePort_eng_ne v h).trans hv⟩
  have hown (v : State) (hv : v.eng q = u.eng q) :
      v.settlePort q = (v.setEng q ((u.eng q).rated r)).settlePort q := by
    rw [← hv]
    exact settlePort_due (hv ▸ hr) (hv ▸ hidle)
  unfold State.settle
  cases q
  · rw [← hown u rfl]
  · obtain ⟨hA, heng⟩ := hafter (p := .A) (by decide) u rfl
    rw [hA, ← hown _ heng]
  · obtain ⟨hA, hengA⟩ := hafter (p := .A) (by decide) u rfl
    obtain ⟨hB, hengB⟩ := hafter (p := .B) (by decide) _ hengA
    rw [hA, hB, ← hown _ hengB]

/-- A choice of a frame leaves the link rate and the receiver. -/
theorem chooseFrame_rate (v : State) (p : Port) : ((v.chooseFrame p).eng p).rate = (v.eng p).rate ∧
    ((v.chooseFrame p).eng p).ratePending = (v.eng p).ratePending ∧ ((v.chooseFrame p).eng p).rx = (v.eng p).rx := by
  have hrem (i : Src) : (v.removeRef i p).eng p = v.eng p := by
    obtain ⟨-, -, -, -, he, -⟩ := offDelivery_fields (removeRef_offDelivery v i p)
    simp only [State.eng, he]
  unfold State.chooseFrame State.takeHead State.beginFrame
  dsimp only
  repeat' split
  all_goals simp [hrem]

/-- The link rate of a port after the end of an event. -/
theorem settle_rate (u : State) (p : Port) :
    ((u.eng p).tx = .idle → ∀ r, (u.eng p).ratePending = some ⟨r, 0⟩ → (u.settle.eng p).rate = r ∧
      (u.settle.eng p).ratePending = none ∧ (u.settle.eng p).rx = .hunt) ∧
    ((u.eng p).tx ≠ .idle ∨ (u.eng p).rateDue = false → (u.settle.eng p).rate = (u.eng p).rate ∧
      (u.settle.eng p).ratePending = (u.eng p).ratePending ∧ (u.settle.eng p).rx = (u.eng p).rx) := by
  obtain ⟨v, hv, hsettle⟩ := settle_eng u p
  obtain ⟨hrate, hpending, hrx⟩ := chooseFrame_rate (v.applyRate p) p
  rw [hsettle, ← hv]
  unfold State.settlePort
  rw [hrate, hpending, hrx]
  refine ⟨fun hidle r hr => ?_, fun h => ?_⟩
  · rw [applyRate_due hr hidle, State.eng_setEng, if_pos rfl]
    exact ⟨rfl, rfl, rfl⟩
  · have hkept : (v.applyRate p).eng p = v.eng p := by
      rcases h with h | h
      · rw [applyRate_busy h]
      · exact (applyRate_keeps v p p).2.1 h
    rw [hkept]
    exact ⟨rfl, rfl, rfl⟩

/-- The wait of a link rate that has ended before the end of an event has ended (R131). -/
theorem released_of_due (hr : (u.eng p).ratePending = some ⟨r, 0⟩) (hrate : (u.eng p).rate = (s.eng p).rate)
    (htx : (u.eng p).tx = .idle ↔ (s.eng p).tx = .idle) : RateReleased s u.settle p r := by
  obtain ⟨hdue, hwaits⟩ := settle_rate u p
  refine ⟨fun hidle => hdue (htx.mpr hidle) r hr, fun hbusy => ?_⟩
  obtain ⟨h1, h2, -⟩ := hwaits (.inl (mt htx.mp hbusy))
  exact ⟨h1.trans hrate, h2.trans hr⟩

/-- A change of an engine that the transmitter's choice does not look at. -/
theorem Settled.setEng (h : Settled s) (htx : e.tx = (s.eng p).tx) (hst : e.state = (s.eng p).state)
    (hr : e.responses = (s.eng p).responses) (hw : e.withdrawals = (s.eng p).withdrawals)
    (hrate : e.tx = .idle → e.rateDue = false) : Settled (s.setEng p e) := by
  refine ⟨h.live, fun q => ?_⟩
  by_cases hq : p = q
  · subst hq
    intro hidle
    rw [State.eng_setEng, if_pos rfl] at hidle ⊢
    obtain ⟨-, hlists⟩ := h.quiet p (htx ▸ hidle)
    refine ⟨hrate hidle, fun hon => ?_⟩
    obtain ⟨hresp, hwith, htake⟩ := hlists (hst ▸ hon)
    refine ⟨hr.trans hresp, hw.trans hwith, ?_⟩
    have hsame : (s.setEng p e).canTakeHead p = s.canTakeHead p := by
      rw [Bool.eq_iff_iff, canTakeHead_iff, canTakeHead_iff, State.eng_setEng, if_pos rfl, hst, hr, hw]
      rfl
    rw [hsame, htake]
  · exact quiet_of_eng (by rfl) (by rfl) (by rfl) (by rw [State.eng_setEng, if_neg hq]) (h.quiet q)

end Sys2Proof.Machine

/-! A link rate changes after the response, and a detach ends its wait (O52). -/

namespace Sys2Proof.Machine

variable {s t u v : State} {c : Instr} {p q : Port} {e : PortEngine} {r : LinkRate} {x : PendingRate} {f : Frame}
  {rest : List Frame} {index : Byte} {content : List Byte} {new : PortCfg}

/-! ### A write of the link rate (R131, R173) -/

/-- A write that changes the link rate alone puts its entry in force and makes the rate pending. -/
theorem writePort_rate (he : new.enabled = (s.portCfg q).enabled) (hb : new.backlog = (s.portCfg q).backlog)
    (hf : new.classFilter = (s.portCfg q).classFilter) (hr : new.rate ≠ (s.portCfg q).rate) :
    s.writePort p q new = (s.setPortCfg q new).pendRate q new.rate (decide (p = q)) := by
  unfold State.writePort State.triggerIf
  simp [he, hb, hf, Ne.symm hr]

theorem settled_setPortCfg (h : Settled s) (q : Port) (new : PortCfg) : Settled (s.setPortCfg q new) :=
  h.congr rfl rfl (fun _ => rfl) rfl

/-- A response at p after a change of another port's engine that leaves it at rest. -/
theorem other_write_replies {w : Response} (hs : Settled (s.setEng q e)) (hq : q ≠ p)
    (hon : (s.eng p).state ≠ .disabled) :
    (((s.popped p rest).setEng q e).respondIfOn p w).settle =
      (s.setEng q e).reply p { s.eng p with requests := rest } w := by
  have hown : (s.setEng q e).eng p = s.eng p := by rw [State.eng_setEng, if_neg hq]
  have hcomm : (s.popped p rest).setEng q e = (s.setEng q e).popped p rest := by
    unfold State.popped
    rw [hown, setEng_comm (Ne.symm hq)]
  rw [hcomm, popped_replies hs (by rw [hown]; exact hon), hown]

/-- The same where the change makes a link rate due at a transmitter that is between frames: it is in force at once. -/
theorem due_write_replies {w : Response} (hs : Settled s) (hq : q ≠ p) (hon : (s.eng p).state ≠ .disabled)
    (hidle : (s.eng q).tx = .idle) (r : LinkRate) :
    (((s.popped p rest).setEng q { s.eng q with ratePending := some ⟨r, 0⟩ }).respondIfOn p w).settle =
      (s.setEng q ((s.eng q).rated r)).reply p { s.eng p with requests := rest } w := by
  have hafter : Settled (s.setEng q ((s.eng q).rated r)) := hs.setEng rfl rfl rfl rfl fun _ => rfl
  have hresp (e : PortEngine) : ((s.popped p rest).setEng q e).respondIfOn p w =
      ((s.popped p rest).respondIfOn p w).setEng q e := by
    have hown : ((s.popped p rest).setEng q e).eng p = (s.popped p rest).eng p := by
      rw [State.eng_setEng, if_neg hq]
    unfold State.respondIfOn State.respond
    rw [hown]
    split
    · rfl
    · exact setEng_comm (Ne.symm hq) _ _ _
  rw [← other_write_replies (rest := rest) (w := w) hafter hq hon, hresp, hresp]
  generalize (s.popped p rest).respondIfOn p w = u
  rw [settle_due (u := u.setEng q { s.eng q with ratePending := some ⟨r, 0⟩ }) (r := r)
    (by rw [State.eng_setEng, if_pos rfl]) (by rw [State.eng_setEng, if_pos rfl]; exact hidle)]
  rw [State.eng_setEng, if_pos rfl, State.setEng_setEng]
  rfl

/-- What a write of the link rate from p to the entry of q runs. -/
theorem exec_rate_write (hc : c = .linkRateWrite p ∨ c = .writePortEntry p) (hfits : c.fits s f = true)
    (hw : WriteTaken s p f rest 4 index content) (hq : index.toNat = q.index) (hnew : decodePort content = some new)
    (he : new.enabled = (s.portCfg q).enabled) (hb : new.backlog = (s.portCfg q).backlog)
    (hf : new.classFilter = (s.portCfg q).classFilter) (hr : new.rate ≠ (s.portCfg q).rate) :
    exec c s = .next (((((s.setPortCfg q new).popped p rest).pendRate q new.rate (decide (p = q))).respondIfOn p
      (writeOk 4 index)).settle) := by
  have hrow : c ∈ portRows p := by
    rcases hc with rfl | rfl <;> simp [portRows]
  rw [exec_port_write hrow hfits hw hq hnew, writePort_rate (s := s.popped p rest) he hb hf hr]
  rfl

/-- A rate that waits for a response is not due. -/
theorem rateDue_of_pos {n : Nat} (h : (s.eng p).ratePending = some ⟨r, n⟩) (hn : 0 < n) : (s.eng p).rateDue = false := by
  obtain ⟨n, rfl⟩ := Nat.exists_eq_succ_of_ne_zero hn.ne'
  unfold PortEngine.rateDue
  rw [h]
  rfl

/-! ### What a detach does to the engine of its port (R131, R153) -/

theorem detachEffects_eng (s : State) (p : Port) (st : PortState) : (s.detachEffects p st).eng p =
    { s.eng p with
      requests := [], responses := [], withdrawals := [], state := st
      ratePending := releaseRate (s.eng p).ratePending } := by
  have hlists (t : State) (ht : t.eng p = s.eng p) : (t.emptyLists p st).eng p = { s.eng p with
      requests := [], responses := [], withdrawals := [], state := st
      ratePending := releaseRate (s.eng p).ratePending } := by
    rw [State.emptyLists, State.eng_setEng, if_pos rfl, ht]
  have hgone : (s.letAllGo p).eng p = s.eng p :=
    (eng_of_offNotices (emptyQueue_empties (s.revokeAll p) p).1.rest p).trans
      (eng_of_offNotices (revokeAll_frees s p).1.rest p)
  unfold State.detachEffects
  split
  · exact hlists (s.letAllGo p) hgone
  · exact hlists s rfl

theorem respond_rate (s : State) (p q : Port) (w : Response) : ((s.respond q w).eng p).rate = (s.eng p).rate ∧
    ((s.respond q w).eng p).ratePending = (s.eng p).ratePending ∧ ((s.respond q w).eng p).tx = (s.eng p).tx := by
  rw [respond_eng]
  split
  · subst_vars
    exact ⟨rfl, rfl, rfl⟩
  · exact ⟨rfl, rfl, rfl⟩

theorem eng_of_offDelivery (h : t.offDelivery = s.offDelivery) (p : Port) : t.eng p = s.eng p :=
  eng_of_offNotices (offNotices_of_offDelivery h) p

/-- A port whose link is cut, by a break or by the write that disables it. -/
theorem detach_cut_rate (hx : (s.eng p).ratePending = some x) (st : PortState) :
    (((s.detachEffects p st).cutLink p).eng p).ratePending = some ⟨x.rate, 0⟩ ∧
      (((s.detachEffects p st).cutLink p).eng p).rate = (s.eng p).rate ∧
      ((((s.detachEffects p st).cutLink p).eng p).tx = .idle ↔ (s.eng p).tx = .idle) ∧
      (((s.detachEffects p st).cutLink p).eng p).state = st := by
  unfold State.cutLink
  simp only [State.eng_setSignalled, State.eng_setEng, if_true, detachEffects_eng, hx, releaseRate_some, true_and, and_true]
  cases (s.eng p).tx <;> simp

theorem saysEnabled_of_decode (hp : f.payload = 4 :: index :: content) (hnew : decodePort content = some new) :
    f.saysEnabled = new.enabled := by
  have hfirst : f.saysEnabled = (content.getD 0 0).getLsbD 0 := by
    unfold Frame.saysEnabled Frame.byte
    rw [hp]
    rfl
  rw [hfirst]
  unfold decodePort at hnew
  split at hnew
  · split at hnew
    · cases hnew
      rfl
    · cases hnew
  · cases hnew

/-- Both rows of a write that disables a port name its frame (log 21). -/
theorem fits_of_port_disable (hc : c = .portDisable q ∨ c = .writePortEntry q)
    (hw : WriteTaken s q f rest 4 index content) (hnew : decodePort content = some new) (hoff : new.enabled = false) :
    c.fits s f = true := by
  have hwrites : f.writes 4 = true := hw.writes 4 rfl
  rcases hc with rfl | rfl
  · show (f.writes 4 && !f.saysEnabled) = true
    rw [hwrites, saysEnabled_of_decode hw.payload hnew, hoff]
    rfl
  · show (f.writes 4 || f.writesNone) = true
    rw [hwrites, Bool.true_or]

/-- The engine of a port that a write has disabled: the rate that waited, or that of the write, is due. -/
theorem writePort_disable_rate (hx : (s.eng p).ratePending = some x) (hen : (s.portCfg p).enabled = true)
    (hoff : new.enabled = false) (q : Port) :
    ((s.writePort q p new).eng p).ratePending =
        some ⟨if new.rate = (s.portCfg p).rate then x.rate else new.rate, 0⟩ ∧
      ((s.writePort q p new).eng p).rate = (s.eng p).rate ∧
      (((s.writePort q p new).eng p).tx = .idle ↔ (s.eng p).tx = .idle) := by
  obtain ⟨hpending, hrate, htx, hstate⟩ := detach_cut_rate hx .disabled
  unfold State.writePort
  dsimp only
  rw [hen, hoff, if_pos (show (true && !false) = true from rfl)]
  have hlimit (t : State) : (if (s.portCfg p).backlog = new.backlog then t else t.setBacklog p new.backlog).eng p =
      t.eng p := by
    split
    · rfl
    · simp only [State.eng, (setBacklog_cut t p new.backlog).engines]
  have hown := hlimit (s.disablePort p)
  generalize (if (s.portCfg p).backlog = new.backlog then s.disablePort p
    else (s.disablePort p).setBacklog p new.backlog) = u at hown ⊢
  rw [eng_of_offDelivery (triggerIf_offDelivery _ _)]
  have hentry : ((s.detachEffects p .disabled).cutLink p).eng p = (u.setPortCfg p new).eng p := hown.symm
  rw [hentry] at hpending hrate htx hstate
  by_cases hr : (s.portCfg p).rate = new.rate
  · rw [if_pos hr, if_pos hr.symm]
    exact ⟨hpending, hrate, htx⟩
  · have hnone : ((u.setPortCfg p new).eng p).owedAfterWrite (decide (q = p)) = 0 := by
      unfold PortEngine.owedAfterWrite
      rw [hstate]
      simp
    rw [if_neg hr, if_neg (Ne.symm hr), pendRate_some hpending, hnone, State.eng_setEng, if_pos rfl]
    exact ⟨rfl, hrate, htx⟩

/-! ### The parts of the statement -/

theorem execFrameSent_sending {g : TxFrame} (h : (s.eng p).tx = .sending g) :
    exec (.frameSent p) s = .next (s.frameEnded p g).settle := by
  show execFrameSent p s = _
  unfold execFrameSent
  rw [h]

theorem execFrameSent_cutOff (h : (s.eng p).tx = .cutOff) :
    exec (.frameSent p) s = .next (s.setEng p { s.eng p with tx := .idle }).settle := by
  show execFrameSent p s = _
  unfold execFrameSent
  rw [h]

/-- A frame that ends with n responses still to be waited for. -/
theorem frameSent_rate {g : TxFrame} {n : Nat} (htx : (s.eng p).tx = .sending g)
    (hn : ((s.eng p).afterFrame g.body).ratePending = some ⟨r, n⟩) : ∃ t, exec (.frameSent p) s = .next t ∧
      (n = 0 → (t.eng p).rate = r ∧ (t.eng p).ratePending = none ∧ (t.eng p).rx = .hunt ∧
        (t.eng p).errors = (s.eng p).errors) ∧
      (0 < n → (t.eng p).rate = (s.eng p).rate ∧ (t.eng p).ratePending = some ⟨r, n⟩ ∧
        (t.eng p).rx = (s.eng p).rx) := by
  have hown := (frameEnded_over s p g).own
  obtain ⟨hdue, hwaits⟩ := settle_rate (s.frameEnded p g) p
  have herrors := ((settle_answering (s.frameEnded p g)).links p).errors
  rw [hown] at hdue hwaits herrors
  refine ⟨_, execFrameSent_sending htx, fun h0 => ?_, fun hpos => ?_⟩
  · obtain ⟨hrate, hpending, hrx⟩ := hdue rfl r (by rw [hn, h0])
    exact ⟨hrate, hpending, hrx, herrors⟩
  · obtain ⟨hrate, hpending, hrx⟩ := hwaits (.inr (by rw [← hown]; exact rateDue_of_pos (by rw [hown, hn]) hpos))
    exact ⟨hrate, hpending.trans hn, hrx⟩

/-- A rate that a write from another port makes pending waits for what the rate before it waited for, if one did. -/
theorem other_rate_write (hs : Settled s) (hq : q ≠ p) (hon : (s.eng p).state ≠ .disabled) (w : Response)
    (r : LinkRate) :
    ((s.eng q).tx = .idle → (s.eng q).ratePending = none →
      (((s.popped p rest).pendRate q r (decide (p = q))).respondIfOn p w).settle =
        (s.setEng q { s.eng q with rate := r, rx := .hunt }).reply p { s.eng p with requests := rest } w) ∧
    ((s.eng q).tx ≠ .idle → (s.eng q).ratePending = none →
      (((s.popped p rest).pendRate q r (decide (p = q))).respondIfOn p w).settle =
        (s.setEng q { s.eng q with ratePending := some ⟨r, 0⟩ }).reply p { s.eng p with requests := rest } w) ∧
    (∀ x, (s.eng q).ratePending = some x →
      (((s.popped p rest).pendRate q r (decide (p = q))).respondIfOn p w).settle =
        (s.setEng q { s.eng q with ratePending := some ⟨r, x.after⟩ }).reply p { s.eng p with requests := rest } w) := by
  have heng : (s.popped p rest).eng q = s.eng q := by rw [State.popped, State.eng_setEng, if_neg (Ne.symm hq)]
  have hnone : (s.eng q).owedAfterWrite (decide (p = q)) = 0 := by
    rw [decide_eq_false (Ne.symm hq)]
    rfl
  refine ⟨fun hidle hp => ?_, fun hbusy hp => ?_, fun x hx => ?_⟩
  · rw [pendRate_none (by rw [heng]; exact hp), heng, hnone, due_write_replies hs hq hon hidle]
    unfold PortEngine.rated
    rw [← hp]
  · rw [pendRate_none (by rw [heng]; exact hp), heng, hnone]
    exact other_write_replies (hs.setEng rfl rfl rfl rfl fun hidle => absurd hidle hbusy) hq hon
  · rw [pendRate_some (by rw [heng]; exact hx), heng, hnone, Nat.max_zero]
    refine other_write_replies (hs.setEng rfl rfl rfl rfl fun hidle => ?_) hq hon
    obtain ⟨hdue, -⟩ := hs.quiet q hidle
    unfold PortEngine.rateDue at hdue ⊢
    rw [hx] at hdue
    obtain ⟨y, n⟩ := x
    cases n
    · cases hdue
    · rfl

/-- A rate that a write makes pending at its own port waits for the response to the write (R131). -/
theorem own_rate_write (hs : Settled s) (hon : (s.eng p).state ≠ .disabled) (w : Response) (r : LinkRate) {owed : Nat}
    (ho : owed = (match (s.eng p).tx with | .sending ⟨_, _, _, .response _⟩ => 1 | _ => 0) +
      (s.eng p).responses.length + 1) :
    ((s.eng p).ratePending = none →
      (((s.popped p rest).pendRate p r (decide (p = p))).respondIfOn p w).settle =
        s.reply p { s.eng p with requests := rest, ratePending := some ⟨r, owed⟩ } w) ∧
    (∀ x, (s.eng p).ratePending = some x →
      (((s.popped p rest).pendRate p r (decide (p = p))).respondIfOn p w).settle =
        s.reply p { s.eng p with requests := rest, ratePending := some ⟨r, max x.after owed⟩ } w) := by
  have heng : (s.popped p rest).eng p = { s.eng p with requests := rest } := by
    rw [State.popped, State.eng_setEng, if_pos rfl]
  have howed : ({ s.eng p with requests := rest } : PortEngine).owedAfterWrite (decide (p = p)) = owed := by
    unfold PortEngine.owedAfterWrite
    exact (if_pos (by simpa using hon)).trans ho.symm
  have hreply (n : Nat) (hn : 0 < n) : (((s.popped p rest).setEng p { s.eng p with
      requests := rest, ratePending := some ⟨r, n⟩ }).respondIfOn p w).settle =
        s.reply p { s.eng p with requests := rest, ratePending := some ⟨r, n⟩ } w := by
    unfold State.popped State.respondIfOn
    rw [State.setEng_setEng, State.eng_setEng, if_pos rfl, if_neg hon]
    refine settle_respond hs hon hon rfl rfl fun _ => ?_
    obtain ⟨n, rfl⟩ := Nat.exists_eq_succ_of_ne_zero hn.ne'
    rfl
  refine ⟨fun hp => ?_, fun x hx => ?_⟩
  · rw [pendRate_none (by rw [heng]; exact hp), heng, howed]
    exact hreply owed (by omega)
  · rw [pendRate_some (x := x) (by rw [heng]; exact hx), heng, howed]
    exact hreply _ (by omega)

/-- A DETACH ends the wait (R151, R131). -/
theorem detach_releases (hx : (s.eng p).ratePending = some x) (hex : Executes s p .detach f rest) :
    ∃ t, exec (.detach p) s = .next t ∧ RateReleased s t p x.rate := by
  refine ⟨_, congrArg Host.Outcome.next (execKind_of_executes hex rfl), ?_⟩
  have hpop : (s.popped p rest).eng p = { s.eng p with requests := rest } := by
    rw [State.popped, State.eng_setEng, if_pos rfl]
  have heng (c : Bool) : (((s.popped p rest).detachEffects p .detached).triggerIf c).eng p = { s.eng p with
      requests := [], responses := [], withdrawals := [], state := .detached, ratePending := some ⟨x.rate, 0⟩ } := by
    rw [eng_of_offDelivery (triggerIf_offDelivery _ _), detachEffects_eng, hpop, hx]
    rfl
  unfold State.decideDetach
  obtain ⟨hrate, hpending, htx⟩ := respond_rate (((s.popped p rest).detachEffects p .detached).triggerIf
    (!((s.popped p rest).queue p).isEmpty)) p p (f.answer .ok [])
  rw [heng] at hrate hpending htx
  exact released_of_due hpending hrate (by rw [htx])

/-- The write that disables a port ends its wait (R149, R131). -/
theorem disable_releases (hx : (s.eng p).ratePending = some x) (hc : c = .portDisable q ∨ c = .writePortEntry q)
    (hw : WriteTaken s q f rest 4 index content) (hq : index.toNat = p.index) (hnew : decodePort content = some new)
    (hen : (s.portCfg p).enabled = true) (hoff : new.enabled = false) : ∃ t, exec c s = .next t ∧
      RateReleased s t p (if new.rate = (s.portCfg p).rate then x.rate else new.rate) := by
  have hrow : c ∈ portRows q := by
    rcases hc with rfl | rfl <;> simp [portRows]
  have hpop : ((s.popped q rest).eng p).ratePending = some x ∧ ((s.popped q rest).eng p).rate = (s.eng p).rate ∧
      ((s.popped q rest).eng p).tx = (s.eng p).tx := by
    rw [State.popped, State.eng_setEng]
    split
    · subst_vars
      exact ⟨hx, rfl, rfl⟩
    · exact ⟨hx, rfl, rfl⟩
  refine ⟨_, exec_port_write hrow (fits_of_port_disable hc hw hnew hoff) hw hq hnew, ?_⟩
  obtain ⟨hpending, hrate, htx⟩ := writePort_disable_rate (s := s.popped q rest) hpop.1 hen hoff q
  have hresp : ∀ t : State, ((t.respondIfOn q (writeOk 4 index)).eng p).rate = (t.eng p).rate ∧
      ((t.respondIfOn q (writeOk 4 index)).eng p).ratePending = (t.eng p).ratePending ∧
      ((t.respondIfOn q (writeOk 4 index)).eng p).tx = (t.eng p).tx := by
    intro t
    unfold State.respondIfOn
    split
    · exact ⟨rfl, rfl, rfl⟩
    · exact respond_rate t p q _
  obtain ⟨h1, h2, h3⟩ := hresp ((s.popped q rest).writePort q p new)
  exact released_of_due (h2.trans hpending) (h1.trans (hrate.trans hpop.2.1)) (by rw [h3, htx, hpop.2.2])

/-- Settles O52: the statement's parts are `other_rate_write` and `own_rate_write` for the writes, `frameSent_rate` for
the ends of frames, and the releases of a detach. -/
theorem linkRateChangesAfterTheResponse : Obligations.LinkRateChangesAfterTheResponse := by
  refine ⟨fun s c p q f rest index content new hs hc hfits hw hq hnew he hb hf hr => ?_,
    fun s p g w x htx hg hx => ?_, fun s p g x htx hg hx => ?_, fun s p x hx => ⟨fun f rest hex => detach_releases hx hex,
      fun hb hon => ?_, fun c q f rest index content new hc hw hq hnew => disable_releases hx hc hw hq hnew,
      fun hcut h0 => ?_⟩⟩
  · have hs' := settled_setPortCfg hs q new
    rw [exec_rate_write hc hfits hw hq hnew he hb hf hr]
    refine ⟨fun hq hidle hp => congrArg _ ?_, fun hq hbusy hp => congrArg _ ?_, fun x hq hx => congrArg _ ?_,
      fun owed hq ho => ?_⟩
    · exact (other_rate_write hs' hq hw.portOn _ _).1 hidle hp
    · exact (other_rate_write hs' hq hw.portOn _ _).2.1 hbusy hp
    · exact (other_rate_write hs' hq hw.portOn _ _).2.2 x hx
    · subst hq
      obtain ⟨hnone, hsome⟩ := own_rate_write (rest := rest) hs' hw.portOn (writeOk 4 index) new.rate ho
      exact ⟨fun hp => congrArg _ (hnone hp), fun x hx => congrArg _ (hsome x hx)⟩
  · have hafter : ((s.eng p).afterFrame g.body).ratePending = some ⟨x.rate, x.after - 1⟩ := by
      simp only [PortEngine.afterFrame, hg, hx]
      rfl
    obtain ⟨t, ht, hzero, hpos⟩ := frameSent_rate htx hafter
    exact ⟨t, ht, fun h => hzero (by omega), fun h => hpos (by omega)⟩
  · have hafter : ((s.eng p).afterFrame g.body).ratePending = some ⟨x.rate, x.after⟩ := by
      unfold PortEngine.afterFrame
      dsimp only
      split
      · rename_i w hw
        exact absurd hw (hg w)
      · exact hx
    exact frameSent_rate htx hafter
  · refine ⟨_, congrArg Host.Outcome.next (if_pos ((listens_iff s p).mpr ⟨hb, hon⟩)), ?_⟩
    obtain ⟨hpending, hrate, htx, -⟩ := detach_cut_rate hx .detached
    have heng : (s.breakPort p).eng p = ((s.detachEffects p .detached).cutLink p).eng p :=
      eng_of_offDelivery (triggerIf_offDelivery _ _) p
    exact released_of_due (heng ▸ hpending) (heng ▸ hrate) (heng ▸ htx)
  · refine ⟨_, execFrameSent_cutOff hcut, ?_⟩
    obtain ⟨hdue, -⟩ := settle_rate (s.setEng p { s.eng p with tx := .idle }) p
    refine hdue (by rw [State.eng_setEng, if_pos rfl]) x.rate ?_
    rw [State.eng_setEng, if_pos rfl, ← h0]
    exact hx

end Sys2Proof.Machine

/-! SUPPORT. The rounds by which a detached port hands its notices back (R127, R91, R153). -/

namespace Sys2Proof.Machine

variable {s t u v w x : State} {i j : Src} {n m k : Notice} {p q : Port} {l : List Src}

/-! ### What every round keeps -/

theorem placedAt_iff_offeredTo : s.placedAt i q = true ↔ i ∈ s.queue q ∨ s.OfferedTo q i := by
  cases hn : s.notice i with
  | none => simp [State.placedAt, State.OfferedTo, hn]
  | some n => simp [placedAt_iff hn, State.OfferedTo, hn]

/-- Between s and t port p hands notices back: at the other ports offers stand, and the queues have gained references of
notices that had no place there. -/
structure HandsBack (s t : State) (p : Port) : Prop where
  rest : t.offNotices = s.offNotices
  passList : t.delivery.passList = s.delivery.passList
  passPending : t.delivery.passPending = s.delivery.passPending
  latched : LatchedKept s t
  offers : ∀ q, q ≠ p → ∀ j, t.OfferedTo q j ↔ s.OfferedTo q j
  gains : ∀ q, q ≠ p → ∃ added : List Src, (t.queue q).Perm (added ++ s.queue q) ∧ added.Nodup ∧
    ∀ j ∈ added, s.placedAt j q = false

theorem HandsBack.of_queue (hrest : t.offNotices = s.offNotices)
    (hpass : t.delivery.passList = s.delivery.passList ∧ t.delivery.passPending = s.delivery.passPending)
    (hlatched : LatchedKept s t) (hoffers : ∀ q, q ≠ p → ∀ j, t.OfferedTo q j ↔ s.OfferedTo q j)
    (hqueue : ∀ q, q ≠ p → t.queue q = s.queue q) : HandsBack s t p :=
  ⟨hrest, hpass.1, hpass.2, hlatched, hoffers, fun q hq => ⟨[], .of_eq (hqueue q hq), List.nodup_nil, nofun⟩⟩

theorem HandsBack.refl (s : State) (p : Port) : HandsBack s s p :=
  .of_queue rfl ⟨rfl, rfl⟩ (.of_attention rfl) (fun _ _ _ => .rfl) fun _ _ => rfl

/-- A notice keeps its places at the other ports. -/
theorem HandsBack.placed (h : HandsBack s t p) (hq : q ≠ p) (hj : s.placedAt j q = true) : t.placedAt j q = true := by
  obtain ⟨added, hperm, -⟩ := h.gains q hq
  rw [placedAt_iff_offeredTo] at hj ⊢
  exact hj.imp (fun hj => hperm.mem_iff.mpr (List.mem_append_right _ hj)) (h.offers q hq j).mpr

theorem HandsBack.trans (h : HandsBack s t p) (k : HandsBack t u p) : HandsBack s u p where
  rest := k.rest.trans h.rest
  passList := k.passList.trans h.passList
  passPending := k.passPending.trans h.passPending
  latched := h.latched.trans k.latched
  offers q hq j := (k.offers q hq j).trans (h.offers q hq j)
  gains q hq := by
    obtain ⟨first, hfirst, hfirstOnce, hfirstNew⟩ := h.gains q hq
    obtain ⟨later, hlater, hlaterOnce, hlaterNew⟩ := k.gains q hq
    refine ⟨later ++ first, ?_, List.nodup_append.mpr ⟨hlaterOnce, hfirstOnce, ?_⟩, fun j hj => ?_⟩
    · rw [List.append_assoc]
      exact hlater.trans (hfirst.append_left later)
    · rintro j hj _ hj' rfl
      have hplaced : t.placedAt j q = true :=
        placedAt_iff_offeredTo.mpr (.inl (hfirst.mem_iff.mpr (List.mem_append_left _ hj')))
      rw [hlaterNew j hj] at hplaced
      cases hplaced
    · rcases List.mem_append.mp hj with hj | hj
      · rw [← Bool.not_eq_true]
        intro hplaced
        have := h.placed hq hplaced
        rw [hlaterNew j hj] at this
        cases this
      · exact hfirstNew j hj

theorem HandsBack.foldl {op : State → Src → State} (hop : ∀ t j, HandsBack t (op t j) p) (l : List Src) (s : State) :
    HandsBack s (l.foldl op s) p :=
  NoticeInvariant.foldl (P := fun t => HandsBack s t p) (fun t j h => h.trans (hop t j)) l (.refl s p)

/-- A notice rewritten with its offers to other ports as they are. -/
theorem modNotice_handsBack (s : State) (i : Src) {f : Notice → Notice}
    (hf : ∀ n q, q ≠ p → (f n).offers.has q = n.offers.has q) : HandsBack s (s.modNotice i f) p := by
  obtain ⟨hrest, hdelivery, hattention, -⟩ := modNotice_rest s i f
  refine .of_queue hrest ⟨by rw [hdelivery], by rw [hdelivery]⟩ (.of_attention hattention) (fun q hq j => ?_)
    fun q _ => modNotice_queue s i f q
  unfold State.OfferedTo
  rw [modNotice_notice]
  by_cases hij : i = j
  · subst hij
    cases hn : s.notice i with
    | none => simp
    | some n => simp [hf n q hq]
  · rw [if_neg hij]

theorem walkIfBare_handsBack (s : State) (i : Src) (p : Port) : HandsBack s (s.walkIfBare i) p where
  rest := (walkIfBare_walkStep s i).rest
  passList := (walkIfBare_pass s i).1
  passPending := (walkIfBare_pass s i).2
  latched := (walkIfBare_walkStep s i).latched
  offers q _ j := by
    have hstep := walkIfBare_walkStep s i
    unfold State.OfferedTo
    by_cases hj : j = i
    · subst hj
      cases hn : s.notice j with
      | none => simp [hstep.absent hn]
      | some n =>
        obtain ⟨_, _, hm⟩ := hstep.record n hn
        simp [hm]
    · rw [hstep.others j hj]
  gains q _ := by
    rcases walkIfBare_queue_gains s i q with hsame | ⟨hbare, hgained⟩
    · exact ⟨[], .of_eq hsame, List.nodup_nil, nofun⟩
    · exact ⟨[i], hgained, List.nodup_singleton i, fun j hj => List.mem_singleton.mp hj ▸ hbare⟩

theorem dropOffer_handsBack (s : State) (p : Port) (i : Src) : HandsBack s (s.dropOffer p i) p :=
  modNotice_handsBack s i fun n q hq => by simp [Ne.symm hq]

theorem revokeClaim_handsBack (s : State) (p : Port) (i : Src) : HandsBack s (s.revokeClaim p i) p :=
  modNotice_handsBack s i fun _ _ _ => rfl

theorem addTried_handsBack (s : State) (p : Port) (i : Src) : HandsBack s (s.addTried p i) p :=
  modNotice_handsBack s i fun _ _ _ => rfl

theorem evict_handsBack (s : State) (p : Port) (i : Src) : HandsBack s (s.evict p i) p :=
  (addTried_handsBack s p i).trans (walkIfBare_handsBack _ i p)

theorem setQueue_handsBack (s : State) (p : Port) (l : List Src) : HandsBack s (s.setQueue p l) p :=
  .of_queue rfl ⟨rfl, rfl⟩ (.of_attention rfl) (fun _ _ _ => .rfl) fun q hq => by
    rw [State.queue_setQueue, if_neg (Ne.symm hq)]

/-- The round of R91: the head leaves p's queue, and its notice is handled. -/
def State.dequeue (s : State) (p : Port) (i : Src) : State := (s.setQueue p (s.queue p).tail).evict p i

theorem emptyQueue_eq (s : State) (p : Port) :
    s.emptyQueue p = (s.queue p).foldl (fun t i => t.dequeue p i) s := rfl

theorem dequeue_handsBack (s : State) (p : Port) (i : Src) : HandsBack s (s.dequeue p i) p :=
  (setQueue_handsBack s p _).trans (evict_handsBack _ p i)

/-- The offers of p are taken away, then its claims (R127). -/
def State.dropOffers (s : State) (p : Port) : State :=
  (sortByKey s.ageKey (s.noticesWith (fun n => n.offers.has p))).foldl (fun t i => (t.dropOffer p i).walkIfBare i) s

theorem revokeAll_eq (s : State) (p : Port) : s.revokeAll p =
    (sortByKey s.ageKey (s.noticesWith (fun n => n.state == .claimed p))).foldl
      (fun t i => (t.revokeClaim p i).walkIfBare i) (s.dropOffers p) := rfl

theorem dropOffer_walk_handsBack (p : Port) (t : State) (i : Src) :
    HandsBack t ((t.dropOffer p i).walkIfBare i) p :=
  (dropOffer_handsBack t p i).trans (walkIfBare_handsBack _ i p)

theorem revokeClaim_walk_handsBack (p : Port) (t : State) (i : Src) :
    HandsBack t ((t.revokeClaim p i).walkIfBare i) p :=
  (revokeClaim_handsBack t p i).trans (walkIfBare_handsBack _ i p)

theorem revokeAll_handsBack (s : State) (p : Port) : HandsBack s (s.revokeAll p) p := by
  rw [revokeAll_eq]
  exact (HandsBack.foldl (dropOffer_walk_handsBack p) _ s).trans (.foldl (revokeClaim_walk_handsBack p) _ _)

theorem emptyQueue_handsBack (s : State) (p : Port) : HandsBack s (s.emptyQueue p) p :=
  .foldl (fun t j => dequeue_handsBack t p j) (s.queue p) s

/-! ### Rounds that concern other notices -/

/-- Rounds that hand other notices back, seen from the notice of i. -/
structure PassesBy (s t : State) (p : Port) (i : Src) : Prop where
  back : HandsBack s t p
  record : t.notice i = s.notice i
  refs : ∀ q, i ∈ t.queue q ↔ i ∈ s.queue q
  stays : NoticeStays s t i

theorem PassesBy.refl (s : State) (p : Port) (i : Src) : PassesBy s s p i :=
  ⟨.refl s p, rfl, fun _ => .rfl, .of_eq rfl rfl (fun _ => rfl) i⟩

theorem PassesBy.trans (h : PassesBy s t p i) (k : PassesBy t u p i) : PassesBy s u p i :=
  ⟨h.back.trans k.back, k.record.trans h.record, fun q => (k.refs q).trans (h.refs q), h.stays.trans k.stays⟩

theorem SourceStep.passesBy (h : SourceStep s t j) (hij : i ≠ j) (hback : HandsBack s t p) : PassesBy s t p i :=
  ⟨hback, h.notices i hij, h.mem_queue hij, h.noticeStays hij⟩

theorem modNotice_sourceStep (s : State) (i : Src) (f : Notice → Notice) : SourceStep s (s.modNotice i f) i := by
  unfold State.modNotice
  split
  · exact .refl s i
  · exact setNotice_sourceStep s i _

theorem dropOffer_walk_sourceStep (p : Port) (t : State) (i : Src) :
    SourceStep t ((t.dropOffer p i).walkIfBare i) i :=
  (modNotice_sourceStep t i _).trans (walkIfBare_walkStep _ i).sourceStep

theorem revokeClaim_walk_sourceStep (p : Port) (t : State) (i : Src) :
    SourceStep t ((t.revokeClaim p i).walkIfBare i) i :=
  (modNotice_sourceStep t i _).trans (walkIfBare_walkStep _ i).sourceStep

/-- The round of R91 concerns the head of the queue alone. -/
theorem dequeue_sourceStep (h : s.queue p = i :: l) : SourceStep s (s.dequeue p i) i := by
  have hset : SourceStep s (s.setQueue p (s.queue p).tail) i := {
    SourceStep.refl s i with
    queue := fun q => by
      rw [State.queue_setQueue]
      by_cases hq : p = q
      · subst hq
        rw [if_pos rfl, h, List.filter_cons_of_neg (by simp)]
        rfl
      · rw [if_neg hq] }
  exact hset.trans (evict_sourceStep p _ i)

theorem dequeue_queue (s : State) (p : Port) (i : Src) : (s.dequeue p i).queue p = (s.queue p).tail := by
  rw [State.dequeue, evict_queue, State.queue_setQueue, if_pos rfl]

/-- Rounds over other notices pass a notice by. -/
theorem foldl_passesBy {op : State → Src → State} (hstep : ∀ t j, SourceStep t (op t j) j)
    (hback : ∀ t j, HandsBack t (op t j) p) (hi : i ∉ l) (s : State) : PassesBy s (l.foldl op s) p i := by
  induction l generalizing s with
  | nil => exact .refl s p i
  | cons j l ih =>
    obtain ⟨hij, hi⟩ := List.ne_and_not_mem_of_not_mem_cons hi
    exact ((hstep s j).passesBy hij (hback s j)).trans (ih hi (op s j))

/-- The one round that concerns a notice, between rounds that pass it by. -/
theorem foldl_turn {op : State → Src → State} (hstep : ∀ t j, SourceStep t (op t j) j)
    (hback : ∀ t j, HandsBack t (op t j) p) (hl : l.Nodup) (hi : i ∈ l) (s : State) :
    ∃ w, PassesBy s w p i ∧ PassesBy (op w i) (l.foldl op s) p i := by
  obtain ⟨before, after, rfl⟩ := List.append_of_mem hi
  obtain ⟨-, hafter, hdisj⟩ := List.nodup_append.mp hl
  have hbefore : i ∉ before := fun h => hdisj i h i List.mem_cons_self rfl
  refine ⟨before.foldl op s, foldl_passesBy hstep hback hbefore s, ?_⟩
  rw [List.foldl_append, List.foldl_cons]
  exact foldl_passesBy hstep hback (List.nodup_cons.mp hafter).1 _

theorem dequeues_passBy (hq : s.queue p = l) (hi : i ∉ l) :
    PassesBy s (l.foldl (fun t j => t.dequeue p j) s) p i := by
  induction l generalizing s with
  | nil => exact .refl s p i
  | cons j l ih =>
    obtain ⟨hij, hi⟩ := List.ne_and_not_mem_of_not_mem_cons hi
    exact ((dequeue_sourceStep hq).passesBy hij (dequeue_handsBack s p j)).trans
      (ih (by rw [dequeue_queue, hq, List.tail_cons]) hi)

/-- A notice that stands somewhere has p in its tried set by a round of R91, and no more. -/
theorem dequeue_of_placed (hn : s.notice i = some n) (hp : i ∈ (s.queue p).tail) :
    s.dequeue p i = (s.setQueue p (s.queue p).tail).addTried p i := by
  refine if_pos ?_
  rw [addTried_hasPlace, hasPlace_iff_placedAt]
  refine ⟨p, (placedAt_iff (s := s.setQueue p (s.queue p).tail) hn p).mpr (.inl ?_)⟩
  rwa [State.queue_setQueue, if_pos rfl]

theorem PortSet.insert_insert (v : PortSet) (p : Port) : (v.insert p).insert p = v.insert p := by
  cases p <;> rfl

/-- The last round of R91 that concerns a notice: until then it stands in p's queue, and p at most joins its tried
set. -/
theorem dequeues_last_turn (hq : s.queue p = l) (hi : i ∈ l) (hn : s.notice i = some n) :
    ∃ w tr rest, HandsBack s w p ∧ w.queue p = i :: rest ∧ i ∉ rest ∧ w.notice i = some { n with tried := tr } ∧
      tr.insert p = n.tried.insert p ∧ (∀ q, q ≠ p → (i ∈ w.queue q ↔ i ∈ s.queue q)) ∧
      PassesBy (w.dequeue p i) (l.foldl (fun t j => t.dequeue p j) s) p i := by
  induction l generalizing s n with
  | nil => cases hi
  | cons j l ih =>
    have hnext : (s.dequeue p j).queue p = l := by rw [dequeue_queue, hq, List.tail_cons]
    by_cases hl : i ∈ l
    · by_cases hij : i = j
      · subst hij
        have hround := dequeue_of_placed hn (p := p) (by rwa [hq])
        have hrefs (q : Port) (hqp : q ≠ p) : (s.dequeue p i).queue q = s.queue q := by
          rw [hround, State.addTried, modNotice_queue, State.queue_setQueue, if_neg (Ne.symm hqp)]
        obtain ⟨w, tr, rest, hback, hwq, hrest, hw, htr, hwrefs, hpass⟩ := ih hnext hl
          (by rw [hround]; exact addTried_notice (s := s.setQueue p (s.queue p).tail) hn p)
        exact ⟨w, tr, rest, (dequeue_handsBack s p i).trans hback, hwq, hrest, hw,
          htr.trans (PortSet.insert_insert _ p), fun q hqp => hrefs q hqp ▸ hwrefs q hqp, hpass⟩
      · have hby := (dequeue_sourceStep hq).passesBy hij (dequeue_handsBack s p j)
        obtain ⟨w, tr, rest, hback, hwq, hrest, hw, htr, hwrefs, hpass⟩ := ih hnext hl (hby.record.trans hn)
        exact ⟨w, tr, rest, hby.back.trans hback, hwq, hrest, hw, htr,
          fun q hqp => (hwrefs q hqp).trans (hby.refs q), hpass⟩
    · obtain rfl := (List.mem_cons.mp hi).resolve_right hl
      exact ⟨s, n.tried, l, .refl s p, hq, hl, hn, rfl, fun _ _ => .rfl, dequeues_passBy hnext hl⟩

/-! ### The walk of a notice that a port hands back -/

/-- What the walk of a notice handed back by p leaves of it at the end: it has let p go, and waits on where it stands
elsewhere, and else has been walked with p skipped as tried (R120, R83 to R87). -/
structure HandedOnAs (s t : State) (p : Port) (i : Src) (k m : Notice) : Prop where
  record : t.notice i = some m
  mark : m.mark = k.mark
  conds : m.conds = k.conds
  takeover : m.takeover = k.takeover
  timers : m.offerTimers = k.offerTimers ∧ m.serviceTimer = k.serviceTimer
  letGo : t.letGo p i m
  waitsOn : (∃ q, q ≠ p ∧ s.placedAt i q = true) → m.state = .waiting ∧ m.tried = k.tried
  walked : (∀ q, q ≠ p → s.placedAt i q = false) → WalkedAmong s t i k.tried m

/-- Queue lengths that count at p what stands there in s, and elsewhere what stands in x. -/
def State.lengthsBut (s x : State) (p : Port) (i : Src) (q : Port) : Nat :=
  if q = p then ((s.queue p).filter (fun j => j != i)).length else (x.queue q).length

theorem takes_lengthsBut {tried : PortSet} (hp : tried.has p = true) (cls : Fin 8) :
    s.takes cls tried (s.lengthsBut x p i) = s.takes cls tried (fun q => (x.queue q).length) := by
  funext q
  unfold State.takes State.lengthsBut
  by_cases hq : q = p
  · subst hq
    simp [hp]
  · rw [if_neg hq]

/-- The lengths at which a bare notice is walked are those of s and what earlier rounds have added. -/
theorem HandsBack.lengthsBut (h : HandsBack s x p) (hbare : ∀ q, q ≠ p → x.placedAt i q = false)
    (hlater : ∀ j q, q ≠ p → x.placedAt j q = true → t.placedAt j q = true) (q : Port) :
    ((s.queue q).filter (fun j => j != i)).length ≤ s.lengthsBut x p i q ∧
      s.lengthsBut x p i q ≤ ((s.queue q).filter (fun j => j != i)).length + newcomers s t i q := by
  unfold State.lengthsBut
  by_cases hq : q = p
  · subst hq
    rw [if_pos rfl]
    exact ⟨le_rfl, Nat.le_add_right _ _⟩
  · rw [if_neg hq]
    obtain ⟨added, hperm, hnodup, hnew⟩ := h.gains q hq
    have hin (j : Src) (hj : j ∈ x.queue q) : x.placedAt j q = true := placedAt_iff_offeredTo.mpr (.inl hj)
    have hnot : i ∉ x.queue q := fun hi => by
      have := hin i hi
      rw [hbare q hq] at this
      cases this
    have hmem (j : Src) (hj : j ∈ added) : j ∈ x.queue q := hperm.mem_iff.mpr (List.mem_append_left _ hj)
    have hcome : added.length ≤ newcomers s t i q := length_le_newcomers hnodup fun j hj =>
      ⟨fun hji => hnot (hji ▸ hmem j hj), hlater j q hq (hin j (hmem j hj)), hnew j hj⟩
    rw [filter_ne_of_not_mem fun hi => hnot (hperm.mem_iff.mpr (List.mem_append_right _ hi)), hperm.length_eq,
      List.length_append]
    omega

/-- A notice whose last hold by p has gone in x. -/
theorem HandsBack.handsOn (hback : HandsBack s x p) (hk : x.notice i = some k) (hw : k.state = .waiting)
    (htried : k.tried.has p = true) (hp : x.placedAt i p = false)
    (hplaced : ∀ q, q ≠ p → x.placedAt i q = s.placedAt i q)
    (hlater : ∀ j q, q ≠ p → (x.walkIfBare i).placedAt j q = true → t.placedAt j q = true)
    (hstays : NoticeStays (x.walkIfBare i) t i) : ∃ m, HandedOnAs s t p i k m := by
  cases hb : x.hasPlace i with
  | true =>
    have hround : x.walkIfBare i = x := if_pos hb
    rw [hround] at hstays
    obtain ⟨o, sh, ht⟩ := hstays.record k hk
    refine ⟨_, ht, rfl, rfl, rfl, ⟨rfl, rfl⟩, .inl ⟨hw, htried⟩, fun _ => ⟨hw, rfl⟩, fun hnone => ?_⟩
    obtain ⟨q, hq⟩ := (hasPlace_iff_placedAt x i).mp hb
    by_cases hqp : q = p
    · rw [hqp, hp] at hq
      cases hq
    · rw [hplaced q hqp, hnone q hqp] at hq
      cases hq
  | false =>
    have hround : x.walkIfBare i = x.walk i := if_neg (by simp [hb])
    have hbare (q : Port) : x.placedAt i q = false := by
      rw [← Bool.not_eq_true]
      intro hq
      rw [(hasPlace_iff_placedAt x i).mpr ⟨q, hq⟩] at hb
      cases hb
    have hmono (j : Src) (q : Port) (hq : q ≠ p) (hj : x.placedAt j q = true) : t.placedAt j q = true :=
      hlater j q hq ((walkIfBare_handsBack x i p).placed hq hj)
    rw [hround] at hstays
    obtain ⟨m, hm, hmk, hwalked⟩ := walk_walked hk hw hb
    obtain ⟨st, tr, rfl⟩ : ∃ st tr, m = { k with state := st, tried := tr } := ⟨_, _, hmk⟩
    obtain ⟨o, sh, ht⟩ := hstays.record _ hm
    obtain ⟨-, -, -, -, he, hc, -⟩ := offNotices_fields hback.rest
    have hend := hwalked.of_stays (s := s) hc (fun q => by simp only [State.eng, he]) hm ht hstays.stranded
      hstays.placed
    refine ⟨_, ht, rfl, rfl, rfl, ⟨rfl, rfl⟩, hend.letGo htried, fun ⟨q, hq, hsome⟩ => ?_, fun _ =>
      ⟨s.lengthsBut x p i, ?_, hback.lengthsBut (fun q _ => hbare q) hmono⟩⟩
    · rw [← hplaced q hq, hbare q] at hsome
      cases hsome
    · unfold Walked at hend ⊢
      rwa [takes_lengthsBut htried]

end Sys2Proof.Machine

/-! What a detach hands back (R127, R91, R153). -/

namespace Sys2Proof.Machine

variable {s t u v w x : State} {i j : Src} {n m k : Notice} {p q : Port} {l : List Src}

/-! ### The phases of a detach, seen from one notice -/

/-- What p has let go, as steps 1 and 2 of a detach leave it (R153). -/
def State.handedBack (s : State) (p : Port) : State := (s.revokeAll p).emptyQueue p

theorem handedBack_handsBack (s : State) (p : Port) : HandsBack s (s.handedBack p) p :=
  (revokeAll_handsBack s p).trans (emptyQueue_handsBack _ p)

theorem mem_sorted_noticesWith {test : Notice → Bool} :
    i ∈ sortByKey s.ageKey (s.noticesWith test) ↔ ∃ n, s.notice i = some n ∧ test n = true := by
  rw [(sortByKey_perm _ _).mem_iff, mem_noticesWith]

theorem sorted_noticesWith_nodup (s : State) (test : Notice → Bool) :
    (sortByKey s.ageKey (s.noticesWith test)).Nodup :=
  (sortByKey_perm _ _).nodup_iff.mpr (noticesWith_nodup s test)

/-- What holds of the notice of i holds of every record that stands for it. -/
theorem notice_only {P : Notice → Prop} (hn : s.notice i = some n) (h : P n) (n' : Notice)
    (hn' : s.notice i = some n') : P n' :=
  Option.some.inj (hn.symm.trans hn') ▸ h

theorem dropOffers_passesBy (h : ∀ n, s.notice i = some n → n.offers.has p = false) :
    PassesBy s (s.dropOffers p) p i := by
  refine foldl_passesBy (dropOffer_walk_sourceStep p) (dropOffer_walk_handsBack p) (fun hi => ?_) s
  obtain ⟨n, hn, ho⟩ := mem_sorted_noticesWith.mp hi
  rw [h n hn] at ho
  cases ho

/-- The claims of p that are taken away are those of the state before its offers were. -/
theorem revokeAll_passesBy_claims (h : ∀ n, s.notice i = some n → n.state ≠ .claimed p) :
    PassesBy (s.dropOffers p) (s.revokeAll p) p i := by
  rw [revokeAll_eq]
  refine foldl_passesBy (revokeClaim_walk_sourceStep p) (revokeClaim_walk_handsBack p) (fun hi => ?_) _
  obtain ⟨n, hn, hc⟩ := mem_sorted_noticesWith.mp hi
  exact h n hn (by simpa using hc)

theorem emptyQueue_passesBy (h : i ∉ s.queue p) : PassesBy s (s.emptyQueue p) p i := dequeues_passBy rfl h

theorem modNotice_walk_queue_of_tried (s : State) (i : Src) {f : Notice → Notice}
    (h : ∀ n, (f n).tried.has p = true) : ((s.modNotice i f).walkIfBare i).queue p = s.queue p := by
  refine (walkIfBare_queue_tried fun m hm => ?_).trans (modNotice_queue s i f p)
  rw [modNotice_notice, if_pos rfl] at hm
  obtain ⟨n, -, rfl⟩ := Option.map_eq_some_iff.mp hm
  exact h n

/-- No notice handed back comes back to p's queue. -/
theorem revokeAll_queue (s : State) (p : Port) : (s.revokeAll p).queue p = s.queue p := by
  rw [revokeAll_eq]
  exact (foldl_keeps (fun t => t.queue p) _ (fun t i => modNotice_walk_queue_of_tried t i fun n => by simp) _ _).trans
    (foldl_keeps (fun t => t.queue p) _ (fun t i => modNotice_walk_queue_of_tried t i fun n => by simp) _ s)

/-- A notice that p does not hold is passed by. -/
theorem handedBack_passesBy (ho : ∀ n, s.notice i = some n → n.offers.has p = false ∧ n.state ≠ .claimed p)
    (hq : i ∉ s.queue p) : PassesBy s (s.handedBack p) p i :=
  ((dropOffers_passesBy fun n hn => (ho n hn).1).trans (revokeAll_passesBy_claims fun n hn => (ho n hn).2)).trans
    (emptyQueue_passesBy (by rwa [revokeAll_queue]))

/-! ### The notices that p held -/

/-- A last hold that has gone in x, with rounds after it that pass the notice by, and an end at which every notice
stays in its places. -/
theorem HandsBack.handsOn_end (hback : HandsBack s x p) (hk : x.notice i = some k) (hw : k.state = .waiting)
    (htried : k.tried.has p = true) (hp : x.placedAt i p = false)
    (hplaced : ∀ q, q ≠ p → x.placedAt i q = s.placedAt i q) (hafter : PassesBy (x.walkIfBare i) u p i)
    (hend : ∀ j, NoticeStays u t j) : ∃ m, HandedOnAs s t p i k m :=
  hback.handsOn hk hw htried hp hplaced (fun j _ hq hj => (hend j).placed _ ▸ hafter.back.placed hq hj)
    (hafter.stays.trans (hend i))

/-- A notice that waits in w, with p's offer of it gone, as it was handed on from s. -/
structure HeldYet (s w : State) (p : Port) (i : Src) (n k : Notice) : Prop where
  back : HandsBack s w p
  record : w.notice i = some k
  waiting : k.state = .waiting
  unoffered : k.offers.has p = false
  tried : k.tried.insert p = n.tried.insert p
  facts : k.mark = n.mark ∧ k.conds = n.conds ∧ k.takeover = n.takeover
  timer : n.offers.has p = true → k.offerTimers.get p = none
  placed : ∀ q, q ≠ p → w.placedAt i q = s.placedAt i q
  queue : i ∈ w.queue p ↔ i ∈ s.queue p

theorem HeldYet.passBy (h : HeldYet s w p i n k) (hby : PassesBy w x p i) : HeldYet s x p i n k :=
  { h with
    back := h.back.trans hby.back
    record := hby.record.trans h.record
    placed := fun q hq => (hby.stays.placed q).trans (h.placed q hq)
    queue := (hby.refs p).trans h.queue }

/-- What a waiting notice that p held has become at the end. -/
structure WaitingHandedOn (s t : State) (p : Port) (i : Src) (n m : Notice) : Prop where
  record : t.notice i = some m
  mark : m.mark = n.mark
  conds : m.conds = n.conds
  takeover : m.takeover = n.takeover
  timer : n.offers.has p = true → m.offerTimers.get p = none
  letGo : t.letGo p i m
  waitsOn : (∃ q, q ≠ p ∧ s.placedAt i q = true) → m.state = .waiting ∧ m.tried = n.tried.insert p
  walked : (∀ q, q ≠ p → s.placedAt i q = false) → WalkedAmong s t i (n.tried.insert p) m

theorem HandedOnAs.waitingHandedOn (h : HandedOnAs s t p i k m) (htried : k.tried = n.tried.insert p)
    (hfacts : k.mark = n.mark ∧ k.conds = n.conds ∧ k.takeover = n.takeover)
    (htimer : n.offers.has p = true → k.offerTimers.get p = none) : WaitingHandedOn s t p i n m := by
  obtain ⟨hmark, hconds, htakeover⟩ := hfacts
  exact ⟨h.record, h.mark.trans hmark, h.conds.trans hconds, h.takeover.trans htakeover,
    fun ho => by rw [h.timers.1]; exact htimer ho, h.letGo, htried ▸ h.waitsOn, htried ▸ h.walked⟩

/-- A notice that still stands in p's queue goes with its last reference there (R91). -/
theorem HeldYet.emptied (h : HeldYet s w p i n k) (hi : i ∈ w.queue p)
    (hend : ∀ j, NoticeStays (w.emptyQueue p) t j) : ∃ m, WaitingHandedOn s t p i n m := by
  obtain ⟨y, tr, rest, hback, hyq, hrest, hy, htr, hrefs, hafter⟩ := dequeues_last_turn rfl hi h.record
  have htail : (y.queue p).tail = rest := by rw [hyq]; rfl
  have hx : ((y.setQueue p (y.queue p).tail).addTried p i).notice i =
      some { k with tried := tr.insert p } := addTried_notice (s := y.setQueue p _) hy p
  have hxplaced (q : Port) : ((y.setQueue p (y.queue p).tail).addTried p i).placedAt i q = true ↔
      i ∈ (y.setQueue p rest).queue q ∨ k.offers.has q = true := by
    rw [addTried_placedAt, htail]
    exact placedAt_iff (s := y.setQueue p rest) hy q
  obtain ⟨m, hm⟩ := HandsBack.handsOn_end (t := t)
    ((h.back.trans hback).trans ((setQueue_handsBack y p _).trans (addTried_handsBack _ p i))) hx h.waiting
    (by simp) (by
      rw [← Bool.not_eq_true, hxplaced, State.queue_setQueue, if_pos rfl, h.unoffered]
      simp [hrest])
    (fun q hq => by
      rw [← h.placed q hq, Bool.eq_iff_iff, hxplaced, placedAt_iff h.record, State.queue_setQueue,
        if_neg (Ne.symm hq), hrefs q hq])
    hafter hend
  exact ⟨m, hm.waitingHandedOn (htr.trans h.tried) h.facts h.timer⟩

/-- The offer of a waiting notice to p is taken away: its reference in p's queue holds it yet, or it is handed on. -/
theorem offered_handedOn (hn : s.notice i = some n) (hw : n.state = .waiting) (ho : n.offers.has p = true)
    (hend : ∀ j, NoticeStays (s.handedBack p) t j) : ∃ m, WaitingHandedOn s t p i n m := by
  obtain ⟨w, hbefore, hafter⟩ := foldl_turn (dropOffer_walk_sourceStep p) (dropOffer_walk_handsBack p)
    (sorted_noticesWith_nodup s (fun n => n.offers.has p)) (mem_sorted_noticesWith.mpr ⟨n, hn, ho⟩) s
  have hclaims : PassesBy (s.dropOffers p) (s.revokeAll p) p i :=
    revokeAll_passesBy_claims (notice_only hn (by rw [hw]; nofun))
  have hx : (w.dropOffer p i).notice i = some (n.offerExpired p) := modNotice_some (hbefore.record.trans hn) _
  have hback : HandsBack s (w.dropOffer p i) p := hbefore.back.trans (dropOffer_handsBack w p i)
  have hxplaced (q : Port) : (w.dropOffer p i).placedAt i q = true ↔
      i ∈ s.queue q ∨ (n.offerExpired p).offers.has q = true := by
    rw [placedAt_iff hx, State.dropOffer, modNotice_queue, hbefore.refs]
  have hsame (q : Port) (hq : q ≠ p) : (w.dropOffer p i).placedAt i q = s.placedAt i q := by
    rw [Bool.eq_iff_iff, hxplaced, placedAt_iff hn]
    simp [Notice.offerExpired, Ne.symm hq]
  by_cases hi : i ∈ s.queue p
  · have hround : (w.dropOffer p i).walkIfBare i = w.dropOffer p i :=
      if_pos ((hasPlace_iff_placedAt _ i).mpr ⟨p, (hxplaced p).mpr (.inl hi)⟩)
    have hheld : HeldYet s (w.dropOffer p i) p i n (n.offerExpired p) := {
      back := hback
      record := hx
      waiting := hw
      unoffered := by simp [Notice.offerExpired]
      tried := PortSet.insert_insert _ p
      facts := ⟨rfl, rfl, rfl⟩
      timer := fun _ => by simp [Notice.offerExpired]
      placed := hsame
      queue := by rw [State.dropOffer, modNotice_queue, hbefore.refs] }
    rw [hround] at hafter
    exact (hheld.passBy (hafter.trans hclaims)).emptied (by rwa [revokeAll_queue]) hend
  · have hlater : PassesBy ((w.dropOffer p i).walkIfBare i) (s.handedBack p) p i :=
      (hafter.trans hclaims).trans (emptyQueue_passesBy (by rwa [revokeAll_queue]))
    obtain ⟨m, hm⟩ := hback.handsOn_end hx hw (by simp [Notice.offerExpired])
      (by rw [← Bool.not_eq_true, hxplaced]; simp [Notice.offerExpired, hi]) hsame hlater hend
    exact ⟨m, hm.waitingHandedOn rfl ⟨rfl, rfl, rfl⟩ fun _ => by simp [Notice.offerExpired]⟩

/-- A waiting notice that p has been offered or that stands in its queue. -/
theorem waiting_handedOn (hn : s.notice i = some n) (hw : n.state = .waiting)
    (hp : n.offers.has p = true ∨ i ∈ s.queue p) (hend : ∀ j, NoticeStays (s.handedBack p) t j) :
    ∃ m, WaitingHandedOn s t p i n m := by
  by_cases ho : n.offers.has p = true
  · exact offered_handedOn hn hw ho hend
  · have hi := hp.resolve_left ho
    have hby : PassesBy s (s.revokeAll p) p i := (dropOffers_passesBy (notice_only hn (by simpa using ho))).trans
      (revokeAll_passesBy_claims (notice_only hn (by rw [hw]; nofun)))
    have hheld : HeldYet s s p i n n := ⟨.refl s p, hn, hw, by simpa using ho, rfl, ⟨rfl, rfl, rfl⟩,
      fun h => absurd h ho, fun _ _ => rfl, .rfl⟩
    exact (hheld.passBy hby).emptied (by rwa [revokeAll_queue]) hend

/-- A notice that p has claimed loses its claim and is handed on (R127). -/
theorem claimed_handedOn (hn : s.notice i = some n) (hc : n.state = .claimed p) (hrefs : ∀ q, i ∉ s.queue q)
    (hnone : n.offers = PortSet.empty) (hend : ∀ j, NoticeStays (s.handedBack p) t j) :
    ∃ m, HandedOnAs s t p i (n.claimRevoked p) m := by
  have hoffers (q : Port) : n.offers.has q = false := by rw [hnone, PortSet.has_empty]
  have hdrop : PassesBy s (s.dropOffers p) p i := dropOffers_passesBy (notice_only hn (hoffers p))
  obtain ⟨w, hbefore, hafter⟩ := foldl_turn (revokeClaim_walk_sourceStep p) (revokeClaim_walk_handsBack p)
    (sorted_noticesWith_nodup s (fun n => n.state == .claimed p))
    (mem_sorted_noticesWith.mpr ⟨n, hn, by rw [hc, beq_self_eq_true]⟩) (s.dropOffers p)
  rw [← revokeAll_eq] at hafter
  have hpast := hdrop.trans hbefore
  have hx : (w.revokeClaim p i).notice i = some (n.claimRevoked p) := modNotice_some (hpast.record.trans hn) _
  have hbare (q : Port) : (w.revokeClaim p i).placedAt i q = false := by
    rw [← Bool.not_eq_true, placedAt_iff hx, State.revokeClaim, modNotice_queue, hpast.refs]
    simp [Notice.claimRevoked, hrefs, hoffers]
  refine (hpast.back.trans (revokeClaim_handsBack w p i)).handsOn_end hx rfl (by simp [Notice.claimRevoked]) (hbare p)
    (fun q _ => ?_) (hafter.trans (emptyQueue_passesBy (by rw [revokeAll_queue]; exact hrefs p))) hend
  rw [hbare q, eq_comm, ← Bool.not_eq_true, placedAt_iff hn]
  simp [hrefs, hoffers]

end Sys2Proof.Machine

/-! A BREAK detaches the port (O27). -/

namespace Sys2Proof.Machine

variable {s t u v w x : State} {i j : Src} {n m k : Notice} {p q : Port} {l : List Src}

/-! ### A port with nothing to send, at the end of an event (R143) -/

/-- The port is DETACHED, and has no response and no withdrawal to send. -/
def State.Mute (s : State) (p : Port) : Prop :=
  (s.eng p).state = .detached ∧ (s.eng p).responses = [] ∧ (s.eng p).withdrawals = []

theorem State.Mute.canTakeHead (h : s.Mute p) : s.canTakeHead p = false := by
  simp [State.canTakeHead, h.1]

theorem State.Mute.headTaken (h : s.Mute p) : s.headTaken p = none := by
  simp [State.headTaken, h.canTakeHead]

theorem State.Mute.settlePort_own (h : s.Mute p) : s.settlePort p = s.applyRate p := by
  obtain ⟨⟨_, _, _, he⟩, -⟩ := applyRate_keeps s p p
  have hmute : (s.applyRate p).Mute p := by
    unfold State.Mute
    rw [he]
    exact h
  have htake := hmute.canTakeHead
  obtain ⟨-, hresponses, hwithdrawals⟩ := hmute
  exact chooseFrame_nothing hresponses hwithdrawals htake

theorem settlePort_signalled_ne (s : State) (h : q ≠ p) : (s.settlePort q).signalled p = s.signalled p := by
  have hrate : (s.applyRate q).signalled p = s.signalled p := by
    obtain ⟨-, -, -, -, -, ha, -⟩ := offEngines_fields (applyRate_offEngines s q)
    simp only [State.signalled, ha]
  have hrem (t : State) (i : Src) : (t.removeRef i q).signalled p = t.signalled p := by
    obtain ⟨-, -, -, -, -, ha, -⟩ := offDelivery_fields (removeRef_offDelivery t i q)
    simp only [State.signalled, ha]
  rw [← hrate]
  unfold State.settlePort State.chooseFrame State.takeHead State.beginFrame
  dsimp only
  repeat' split
  all_goals simp [h, hrem]

/-- No frame of such a port begins: it stays so, and the codes that it has signalled stand (R144). -/
theorem State.Mute.settlePort (h : s.Mute p) (q : Port) :
    (s.settlePort q).Mute p ∧ (s.settlePort q).signalled p = s.signalled p := by
  by_cases hq : q = p
  · subst hq
    rw [h.settlePort_own]
    obtain ⟨⟨_, _, _, he⟩, -⟩ := applyRate_keeps s q q
    obtain ⟨-, -, -, -, -, ha, -⟩ := offEngines_fields (applyRate_offEngines s q)
    refine ⟨?_, by simp only [State.signalled, ha]⟩
    unfold State.Mute
    rw [he]
    exact h
  · refine ⟨?_, settlePort_signalled_ne s hq⟩
    unfold State.Mute
    rw [settlePort_eng_ne s hq]
    exact h

theorem State.Mute.settle_signalled (h : s.Mute p) : s.settle.signalled p = s.signalled p := by
  obtain ⟨hA, hsA⟩ := h.settlePort .A
  obtain ⟨hB, hsB⟩ := hA.settlePort .B
  exact ((hB.settlePort .C).2.trans hsB).trans hsA

/-- Its engine changes by a due link rate at most (R131). -/
theorem State.Mute.settle_eng (h : s.Mute p) :
    ∃ r o y, s.settle.eng p = { s.eng p with rate := r, ratePending := o, rx := y } ∧
      (y = (s.eng p).rx ∨ y = .hunt) := by
  obtain ⟨w, hw, he⟩ := Machine.settle_eng s p
  have hmute : w.Mute p := by
    unfold State.Mute
    rw [hw]
    exact h
  have hrx := ((settle_answering s).links p).rx
  obtain ⟨⟨r, o, y, hy⟩, -⟩ := applyRate_keeps w p p
  rw [hmute.settlePort_own, hy, hw] at he
  rw [he] at hrx
  exact ⟨r, o, y, he, hrx⟩

/-! ### The re-placement pass at the end of an event (R77, R90) -/

theorem triggerPass_pass (s : State) :
    (s.delivery.passList = [] → s.triggerPass.delivery.passList = s.stranded) ∧
      (s.delivery.passList ≠ [] → s.triggerPass.delivery.passPending = true) := by
  unfold State.triggerPass
  split
  · rename_i h
    exact ⟨fun _ => rfl, fun hne => absurd h hne⟩
  · rename_i hne
    exact ⟨fun h => absurd h hne, fun _ => rfl⟩

/-- A pass list that is the stranded list, and a remembered trigger, outlast a further trigger. -/
theorem triggerPass_outlasts (s : State) :
    (s.delivery.passList = s.stranded → s.triggerPass.delivery.passList = s.stranded) ∧
      (s.delivery.passPending = true → s.triggerPass.delivery.passPending = true) := by
  unfold State.triggerPass
  split
  · exact ⟨fun _ => rfl, id⟩
  · exact ⟨id, fun _ => rfl⟩

theorem removeRef_outlasts (s : State) (i : Src) (p : Port) :
    (s.delivery.passList = s.stranded → (s.removeRef i p).delivery.passList = s.stranded) ∧
      (s.delivery.passPending = true → (s.removeRef i p).delivery.passPending = true) := by
  unfold State.removeRef
  split
  · dsimp only
    split
    · exact triggerPass_outlasts (s.setQueue p ((s.queue p).filter (fun j => j != i)))
    · exact ⟨id, id⟩
  · exact ⟨id, id⟩

theorem settlePort_outlasts (s : State) (p : Port) :
    (s.delivery.passList = s.stranded → (s.settlePort p).delivery.passList = (s.settlePort p).stranded) ∧
      (s.delivery.passPending = true → (s.settlePort p).delivery.passPending = true) := by
  rw [(settlePort_strandedList s p).1]
  obtain ⟨-, -, hn, hd, -⟩ := offEngines_fields (applyRate_offEngines s p)
  have hstranded : (s.applyRate p).stranded = s.stranded := by simp only [State.stranded, hn]
  rw [← hstranded, ← hd]
  unfold State.settlePort State.chooseFrame State.takeHead
  generalize s.applyRate p = u
  dsimp only
  split
  · split
    · exact ⟨id, id⟩
    · split
      · exact ⟨id, id⟩
      · split
        · split
          · exact ⟨id, id⟩
          · split
            · exact ⟨id, id⟩
            · exact removeRef_outlasts u _ p
        · exact ⟨id, id⟩
  · exact ⟨id, id⟩

theorem settle_outlasts (s : State) :
    (s.delivery.passList = s.stranded → s.settle.delivery.passList = s.settle.stranded) ∧
      (s.delivery.passPending = true → s.settle.delivery.passPending = true) := by
  obtain ⟨hlistA, hpendA⟩ := settlePort_outlasts s .A
  obtain ⟨hlistB, hpendB⟩ := settlePort_outlasts (s.settlePort .A) .B
  obtain ⟨hlistC, hpendC⟩ := settlePort_outlasts ((s.settlePort .A).settlePort .B) .C
  exact ⟨hlistC ∘ hlistB ∘ hlistA, hpendC ∘ hpendB ∘ hpendA⟩

/-! ### A BREAK before the transmitters choose (R140) -/

/-- A port that holds nothing hands nothing back. -/
theorem handedBack_of_nothing (h : HoldsNothing s p) : s.handedBack p = s := by
  have hnone {test : Notice → Bool} (ht : ∀ i n, s.notice i = some n → test n = false) :
      sortByKey s.ageKey (s.noticesWith test) = [] := by
    refine List.eq_nil_iff_forall_not_mem.mpr fun i hi => ?_
    obtain ⟨n, hn, hyes⟩ := mem_sorted_noticesWith.mp hi
    rw [ht i n hn] at hyes
    cases hyes
  have hclaims := hnone (test := fun n => n.state == .claimed p) fun i n hn => by
    rw [beq_eq_false_iff_ne]
    exact h.claims i n hn
  have hrevoke : s.revokeAll p = s := by
    rw [revokeAll_eq, hclaims, List.foldl_nil, State.dropOffers, hnone h.offers, List.foldl_nil]
  rw [State.handedBack, hrevoke, emptyQueue_eq, h.queue, List.foldl_nil]

/-- A detach changes the board by what its port hands back. -/
structure Detached (s t : State) (p : Port) : Prop where
  notices : t.notices = (s.handedBack p).notices
  queue : ∀ q, t.queue q = (s.handedBack p).queue q
  latched : ∀ q, t.latched q = (s.handedBack p).latched q
  sources : t.sources = s.sources
  stage : t.stage = s.stage
  tables : t.config.tables = s.config.tables
  image : t.config.image = s.config.image
  engines : ∀ q, q ≠ p → t.eng q = s.eng q

theorem detachEffects_detached (h : PortOk s p) (st : PortState) : Detached s (s.detachEffects p st) p ∧
    (s.detachEffects p st).delivery = (s.handedBack p).delivery := by
  have hlists {u : State} (hn : u.notices = (s.handedBack p).notices) (hd : u.delivery = (s.handedBack p).delivery)
      (ha : u.attention = (s.handedBack p).attention) (hsrc : u.sources = s.sources) (hst : u.stage = s.stage)
      (htables : u.config.tables = s.config.tables) (himage : u.config.image = s.config.image)
      (heng : u.engines = s.engines) :
      Detached s (u.emptyLists p st) p ∧ (u.emptyLists p st).delivery = (s.handedBack p).delivery := by
    refine ⟨⟨hn, fun q => ?_, fun q => ?_, hsrc, hst, htables, himage, fun q hq => ?_⟩, hd⟩
    · exact congrArg (fun d : DeliveryUnit => d.queues.get q) hd
    · exact congrArg (fun a : Attention => a.latched.get q) ha
    · rw [State.emptyLists, State.eng_setEng, if_neg (Ne.symm hq)]
      exact congrArg (fun e => e.get q) heng
  unfold State.detachEffects
  split
  · obtain ⟨-, hst, hsrc, -, heng, hc, -⟩ := offNotices_fields (handedBack_handsBack s p).rest
    exact hlists (u := s.letAllGo p) rfl rfl rfl hsrc hst (congrArg ConfigUnit.tables hc :)
      (congrArg ConfigUnit.image hc :) heng
  · rename_i hoff
    have hsame := handedBack_of_nothing (h.off (by simpa using hoff))
    exact hlists (by rw [hsame]) (by rw [hsame]) (by rw [hsame]) rfl rfl rfl rfl rfl

theorem Detached.noticeStays (h : Detached s t p) (j : Src) : NoticeStays (s.handedBack p) t j := by
  obtain ⟨-, -, hsrc, -⟩ := offNotices_fields (handedBack_handsBack s p).rest
  exact .of_eq (h.sources.trans hsrc.symm) h.notices h.queue j

theorem Detached.latchedKept (h : Detached s t p) : LatchedKept s t := fun q => by
  rw [h.latched]
  exact (handedBack_handsBack s p).latched q

theorem breakPort_detached (h : PortOk s p) : Detached s (s.breakPort p) p := by
  obtain ⟨hdetach, -⟩ := detachEffects_detached h .detached
  unfold State.breakPort
  dsimp only
  generalize ((s.eng p).state.isOn && !(s.queue p).isEmpty) = c
  obtain ⟨hst, hsrc, hn, -, heng, ha, hc⟩ := offDelivery_fields (triggerIf_offDelivery
    ((s.detachEffects p .detached).cutLink p) c)
  refine ⟨hn.trans hdetach.notices, fun q => (triggerIf_queue _ c q).trans (hdetach.queue q), fun q => ?_,
    hsrc.trans hdetach.sources, hst.trans hdetach.stage, ?_, ?_, fun q hq => ?_⟩
  · rw [← hdetach.latched q]
    simp only [State.latched, ha]
    rfl
  · rw [hc]
    exact hdetach.tables
  · rw [hc]
    exact hdetach.image
  · rw [← hdetach.engines q hq]
    simp only [State.eng, heng]
    exact (State.eng_setSignalled _ p 0 q).trans ((State.eng_setEng _ p _ q).trans (if_neg (Ne.symm hq)))

/-- The engine of the port after a BREAK. -/
theorem breakPort_eng (s : State) (p : Port) : (s.breakPort p).eng p = { s.eng p with
    requests := [], responses := [], withdrawals := [], state := .detached, rx := .hunt, lost := false
    ratePending := releaseRate (s.eng p).ratePending
    tx := match (s.eng p).tx with
      | .sending _ => .cutOff
      | tx => tx } := by
  have hown := detachEffects_eng s p .detached
  have hcut (u : State) : (u.cutLink p).eng p = _ := (State.eng_setEng u p _ p).trans (if_pos rfl)
  exact ((eng_of_offDelivery (triggerIf_offDelivery _ _) p).trans (hcut _)).trans (hown ▸ rfl)

theorem breakPort_mute (s : State) (p : Port) : (s.breakPort p).Mute p := by
  unfold State.Mute
  rw [breakPort_eng]
  exact ⟨rfl, rfl, rfl⟩

theorem breakPort_signalled (s : State) (p : Port) : (s.breakPort p).signalled p = 0 := by
  unfold State.breakPort
  dsimp only
  obtain ⟨-, -, -, -, -, ha, -⟩ := offDelivery_fields (triggerIf_offDelivery
    ((s.detachEffects p .detached).cutLink p) ((s.eng p).state.isOn && !(s.queue p).isEmpty))
  simp only [State.signalled, ha]
  show (PerPort.set _ p (0 : DevSet)).get p = 0
  simp

/-- References that leave the queue trigger a pass (R91; log 14). -/
theorem breakPort_pass (h : PortOk s p) (hq : s.queue p ≠ []) :
    (s.delivery.passList = [] → (s.breakPort p).delivery.passList = (s.breakPort p).stranded) ∧
      (s.delivery.passList ≠ [] → (s.breakPort p).delivery.passPending = true) := by
  have hon : (s.eng p).state.isOn = true := by
    by_contra hoff
    exact hq (h.off (by simpa using hoff)).queue
  have hremoved : ((s.eng p).state.isOn && !(s.queue p).isEmpty) = true := by
    simp [hon, hq]
  have hlist : ((s.detachEffects p .detached).cutLink p).delivery.passList = s.delivery.passList :=
    (congrArg DeliveryUnit.passList (detachEffects_detached h .detached).2).trans (handedBack_handsBack s p).passList
  unfold State.breakPort
  dsimp only
  rw [hremoved]
  show (_ → (State.triggerPass _).delivery.passList = (State.triggerPass _).stranded) ∧
    (_ → (State.triggerPass _).delivery.passPending = true)
  obtain ⟨hbegins, hpends⟩ := triggerPass_pass ((s.detachEffects p .detached).cutLink p)
  obtain ⟨-, -, hn, -⟩ := offDelivery_fields (triggerPass_offDelivery ((s.detachEffects p .detached).cutLink p))
  rw [hlist] at hbegins hpends
  refine ⟨fun he => (hbegins he).trans ?_, hpends⟩
  simp only [State.stranded, hn]

/-! ### What stands at the end of a BREAK -/

/-- A notice that the port did not hold stands: a transmitter that was at rest takes only what has come to its empty
queue. -/
theorem Detached.notice_stands (h : Detached s u p) (hs : Settled s) (hmute : u.Mute p)
    (ho : ∀ n, s.notice i = some n → n.offers.has p = false ∧ n.state ≠ .claimed p) (hi : i ∉ s.queue p) :
    u.settle.notice i = s.notice i := by
  have hby := handedBack_passesBy ho hi
  have hrecord : u.notice i = s.notice i := by
    simp only [State.notice, h.notices]
    exact hby.record
  refine (settle_notice_of_notTaken fun q hq => ?_).trans hrecord
  by_cases hqp : q = p
  · rw [hqp, hmute.headTaken] at hq
    cases hq
  · obtain ⟨rest, hhead⟩ := (headTaken_some hq).2.2.1
    have hcount : s.offerCount q ≤ u.offerCount q := offerCount_mono fun j n hn hoff => by
      simp only [State.notice, h.notices]
      exact ((handedBack_handsBack s p).offers q hqp j).mpr ⟨n, hn, hoff⟩
    have hempty := headTaken_of_settled hs h.stage (by rw [h.engines q hqp]) (by rw [h.engines q hqp]) hcount hq
    have hqueued : i ∈ (s.handedBack p).queue q := by
      rw [← h.queue, hhead]
      exact List.mem_cons_self
    have hold := (hby.refs q).mp hqueued
    rw [hempty] at hold
    cases hold

theorem Detached.handedBack (h : Detached s u p) (hmute : u.Mute p)
    (hpass : s.queue p ≠ [] → (s.delivery.passList = [] → u.delivery.passList = u.stranded) ∧
      (s.delivery.passList ≠ [] → u.delivery.passPending = true)) : HandedBack s u.settle p := by
  have hend (j : Src) : NoticeStays (s.handedBack p) u.settle j := (h.noticeStays j).trans (settle_noticeStays u j)
  obtain ⟨hlist, hpending⟩ := settle_outlasts u
  refine ⟨fun i n hn hw hp => ?_, fun i n hn hc hrefs hnone => ?_, fun hs i ho hi => h.notice_stands hs hmute ho hi,
    fun hq => ⟨fun he => hlist ((hpass hq).1 he), fun he => hpending ((hpass hq).2 he)⟩⟩
  · obtain ⟨m, hm⟩ := waiting_handedOn hn hw hp hend
    refine ⟨m, hm.record, hm.mark, hm.conds, hm.takeover, hm.timer, hm.letGo, fun ⟨q, hq, hplaced⟩ => ?_,
      fun hbare => ?_⟩
    · exact hm.waitsOn ⟨q, hq, (placedAt_iff hn q).mpr hplaced⟩
    · refine hm.walked fun q hq => ?_
      rw [← Bool.not_eq_true, placedAt_iff hn]
      simp [hbare q hq]
  · obtain ⟨m, hm⟩ := claimed_handedOn hn hc hrefs hnone hend
    have hbare (q : Port) : s.placedAt i q = false := by
      rw [← Bool.not_eq_true, placedAt_iff hn, hnone, PortSet.has_empty]
      simp [hrefs q]
    exact ⟨m, hm.record, hm.mark, hm.conds, hm.takeover, hm.timers.2, hm.letGo, hm.walked fun q _ => hbare q⟩

/-- The engine of a port that an event has left at rest stands, but for its withdrawal list and the frame that it begins
to send. -/
theorem settle_eng_at_rest (hs : Settled s) (he : u.eng q = s.eng q) : (u.settle.eng q).state = (s.eng q).state ∧
    (u.settle.eng q).rx = (s.eng q).rx ∧ (u.settle.eng q).requests = (s.eng q).requests ∧
    (u.settle.eng q).errors = (s.eng q).errors := by
  obtain ⟨w, hw, hend⟩ := settle_eng u q
  have hkept := settlePort_engKept (s := w) (p := q) fun hidle => by
    rw [hw, he] at hidle ⊢
    obtain ⟨hrate, hlists⟩ := hs.quiet q hidle
    exact ⟨hrate, fun hon => (hlists hon).1⟩
  rw [hend, hkept, hw, he]
  exact ⟨rfl, rfl, rfl, rfl⟩

/-- Settles O27: the port hands back what it held (`Detached.handedBack`), and has nothing to send after it. -/
theorem breakDetachesThePort : Obligations.BreakDetachesThePort := by
  unfold Obligations.BreakDetachesThePort
  intro s p hs hb hon hok
  have hlistens : s.listens p = true := (listens_iff s p).mpr ⟨hb, hon⟩
  have hdetached := breakPort_detached (hok.portOk p)
  have hmute := breakPort_mute s p
  obtain ⟨r, o, y, heng, hrx⟩ := hmute.settle_eng
  rw [breakPort_eng] at heng hrx
  have hy : y = .hunt := hrx.elim id id
  obtain ⟨-, hstage, hsources, -, hconfig, -⟩ := offLinks_fields (settle_offLinks (s.breakPort p))
  have hstate : ((s.breakPort p).settle.eng p).state = .detached := by rw [heng]
  have hoff : ((s.breakPort p).settle.eng p).state.isOn = false := by
    rw [hstate]
    rfl
  refine ⟨(s.breakPort p).settle, congrArg Host.Outcome.next (if_pos hlistens), hstate, ?_, ?_, ?_, ?_, ?_, ?_,
    hmute.settle_signalled.trans (breakPort_signalled s p), hdetached.latchedKept.trans (settle_latchedKept _) p,
    fun f hf => ?_, (((breakPort_kept hlistens).trans (settle_noNew _).kept).ports hok).off p hoff,
    hdetached.handedBack hmute (breakPort_pass (hok.portOk p)), ?_, ?_, ?_, hsources.trans hdetached.sources,
    hstage.trans hdetached.stage, fun q hq => settle_eng_at_rest hs (hdetached.engines q hq)⟩
  · rw [heng, hy]
  · rw [heng]
  · rw [heng]
  · rw [heng]
  · rw [heng]
  · rw [heng]
  · rw [heng, hf]
  · unfold State.nreq
    rw [hoff, Bool.false_and]
  · rw [hconfig, hdetached.tables]
  · rw [hconfig, hdetached.image]

end Sys2Proof.Machine
